-- ==== Sys2Proof/Word.lean ====
section
/-! DEFINITION. The word types of the U2E engine (spec/00_scope.md R10): registers are unsigned 32-bit
words, buffers hold bytes, and a bus transaction carries a 12-bit byte offset (spec/20_memory.md R50). -/

namespace Sys2Proof

/-- A register value or bus data word, `u32` (R10). -/
abbrev Word := BitVec 32

/-- One byte of a buffer, `u8` (R12). -/
abbrev Byte := BitVec 8

/-- A byte offset within the 4 KiB register window (R50, R51). -/
abbrev Offset := BitVec 12

end Sys2Proof
end

