-- ==== Sys2Proof/Config.lean ====
section
/-! DEFINITION. The fixed parameters of spec/00_scope.md R7, each a named constant, and the values the
spec leaves open (R8, R15), each an opaque constant that no proof can see into. -/

namespace Sys2Proof.Config

/-- `DATA_CHUNK_SIZE` (R7). -/
abbrev dataChunkSize : Nat := 256

/-- `UF2_BLOCK_SIZE` (R7). -/
abbrev uf2BlockSize : Nat := 512

/-- `UF2_HEADER_SIZE` (R7). -/
abbrev uf2HeaderSize : Nat := 32

/-- `UF2_DATA_CAPACITY` (R7; spec/90_conflicts.md C1). -/
abbrev uf2DataCapacity : Nat := 476

/-- `UF2_MAGIC_START0` (R7). -/
def uf2MagicStart0 : Word := 0x0A324655#32

/-- `UF2_MAGIC_START1` (R7). -/
def uf2MagicStart1 : Word := 0x9E5D5157#32

/-- `UF2_MAGIC_END` (R7). -/
def uf2MagicEnd : Word := 0x0AB16F30#32

/-- `UF2_FLAGS`, "family ID present" (R7). -/
def uf2Flags : Word := 0x00002000#32

/-- `BOOT_IMAGE_SIZE` (R7). -/
abbrev bootImageSize : Nat := 256

/-- `CRC_OFFSET`: the checksum field is bytes 252..255 of the boot image (R7). -/
abbrev crcOffset : Nat := 252

/-- `CRC_WIDTH` (R7). -/
abbrev crcWidth : Nat := 4

/-- `CRC_POLY`, processed most-significant bit first (R7). -/
def crcPoly : Word := 0x04C11DB7#32

/-- `CRC_INIT` (R7). -/
def crcInit : Word := 0xFFFFFFFF#32

/-- `CRC_XOROUT` (R7). -/
def crcXorOut : Word := 0x00000000#32

/-- Reset value of `FAMILY_ID` (R7, R35). -/
def familyIdReset : Word := 0xE48BFF56#32

/-- Reset value of `BOOT_BASE` (R7, R33). -/
def bootBaseReset : Word := 0x10000000#32

/-- Reset value of `PROG_BASE` (R7, R34). -/
def progBaseReset : Word := 0x10000100#32

/-- The build-time check of R9: a block whose chunk does not fit the data region is not built, and
`InvalidConfiguration` is never reported at run time. -/
def buildCheck : Bool := decide (dataChunkSize ≤ uf2DataCapacity)

/-- `U2E_BASE` (R8, D39): where the platform places the register window. A parameter the spec leaves
open. -/
opaque u2eBase : Nat

/-- `BUF_RESET_CONTENT` (R8, R161): what the buffer byte at a window offset holds after a reset and
until it is written. The first argument numbers the resets (each reset draws afresh), the second is
the byte's window offset (each byte has its own draw). -/
opaque bufferDraw : Nat → Nat → Byte

/-- The data returned by a read of a mapped offset other than STATUS while STATUS.BUSY = 1 (R59). The
argument counts these reads (a fresh draw per read, spec/93_implementation_defined.md U2). -/
opaque busyReadDraw : Nat → Word

end Sys2Proof.Config
end

