-- ==== Sys2Proof/Syntax.lean ====
section
/-! DEFINITION. The commands of the U2E engine: one constructor per row of spec/opcode_table.json. A
command has no operand field and no immediate (spec/30_encoding.md R73). -/

namespace Sys2Proof

/-- A command the engine executes (R71). -/
inductive Instr where
  /-- INJECT, spec/40_crc_injector.md R92 -/
  | inject
  /-- VERIFY, spec/40_crc_injector.md R93 -/
  | verify
  /-- START, spec/41_uf2_encoder.md R104 -/
  | start
  /-- EMIT, spec/41_uf2_encoder.md R105 -/
  | emit
  /-- CLEAR, spec/42_control.md R122 -/
  | clear
deriving DecidableEq, Repr

end Sys2Proof
end

