-- ==== Sys2Proof/Machine/State.lean ====
section
/-! DEFINITION. Everything the spec gives the machine to hold (spec/10_state.md), the host's pending
steps and the responses it received, the reasons a step could stop, and the state after reset
(spec/70_reset_and_hazards.md R160). -/

namespace Sys2Proof.Machine

/-- STATUS.REGION, bit 6: 0 is BOOT, 1 is PROG (R25). -/
inductive Region where
  | boot
  | prog
deriving DecidableEq, Repr

/-- The command errors of R131. Code 0, NONE, is the absence of one. -/
inductive CommandError where
  | malformedBootloader
  | payloadTooLarge
  | invalidConfiguration
  | illegalCommand
  | sequenceError
  | addressOverflow
deriving DecidableEq, Repr

/-- The registers of the address map (R52). -/
inductive Reg where
  | ctrl
  | cmd
  | status
  | errCode
  | errCmd
  | bootLen
  | progLen
  | bootBase
  | progBase
  | familyId
  | crcResult
  | totalBlocks
  | blockIndex
  | regionPos
deriving DecidableEq, Repr

/-- The byte buffers (R30 to R32). -/
inductive Buffer where
  /-- BOOT_BUF, 256 bytes -/
  | boot
  /-- DATA_BUF, 256 bytes -/
  | data
  /-- OUT_BUF, 512 bytes -/
  | out
deriving DecidableEq, Repr

/-- What a mapped, aligned offset names: a register, or word `k` of a buffer (R52, R53). -/
inductive Target where
  | reg (r : Reg)
  | word (b : Buffer) (k : Nat)
deriving DecidableEq, Repr

/-- The access classes of R22. -/
inductive Access where
  | rw
  | rwLocked
  | ro
  | wo
deriving DecidableEq, Repr

/-- The conditions of R58, in the order they are checked. The host sees only the ERROR response. -/
inductive BusError where
  | misaligned
  | unmapped
  | writeWhileBusy
  | writeReadOnly
  | writeLocked
deriving DecidableEq, Repr

/-- One bus transaction of the host (R50). `narrow` is an access of fewer than 32 bits, which a
platform must map to a bus error (R56). -/
inductive BusTxn where
  | read (off : Offset)
  | write (off : Offset) (data : Word)
  | narrow (off : Offset)
deriving DecidableEq, Repr

/-- The response that completes a transaction (R50): OKAY with the data of a read, OKAY of a write, or
ERROR. -/
inductive BusResponse where
  | okayRead (data : Word)
  | okayWrite
  | error
deriving DecidableEq, Repr

/-- What the world outside the engine's command does next: a host transaction, the engine being given
its turn (it moves only if BUSY = 1), or the platform asserting its reset input (R60, R160). -/
inductive Event where
  | host (t : BusTxn)
  | engineTurn
  | reset
deriving DecidableEq, Repr

/-- The buffers' storage: the bytes written since the last reset, keyed by window offset, addresses
strictly rising. An unlisted byte has not been written and holds its draw (R161). -/
abbrev Memory := List Host.Cell

/-- The whole machine. Reserved bits of CTRL, STATUS and ERR_CODE have no storage (R45). -/
structure State where
  /-- CTRL.BOOT_EN (R23) -/
  bootEn : Bool
  /-- CTRL.EMPTY_BLK (R23) -/
  emptyBlk : Bool
  /-- STATUS.BUSY (R25) -/
  busy : Bool
  /-- STATUS.ACTIVE (R25) -/
  active : Bool
  /-- STATUS.DONE (R25) -/
  done : Bool
  /-- STATUS.ERR (R25) -/
  err : Bool
  /-- STATUS.BOOT_OK (R25, R46) -/
  bootOk : Bool
  /-- STATUS.OUT_VALID (R25) -/
  outValid : Bool
  /-- STATUS.REGION (R25) -/
  region : Region
  /-- ERR_CODE.CODE, bits 7:0 (R26) -/
  errCode : Byte
  /-- ERR_CMD (R27) -/
  errCmd : Word
  /-- BOOT_LEN (R28) -/
  bootLen : Word
  /-- PROG_LEN (R29) -/
  progLen : Word
  /-- BOOT_BASE (R33) -/
  bootBase : Word
  /-- PROG_BASE (R34) -/
  progBase : Word
  /-- FAMILY_ID (R35) -/
  familyId : Word
  /-- CRC_RESULT (R36) -/
  crcResult : Word
  /-- TOTAL_BLOCKS (R37) -/
  totalBlocks : Word
  /-- BLOCK_INDEX (R38) -/
  blockIndex : Word
  /-- REGION_POS (R39) -/
  regionPos : Word
  /-- PENDING_CMD, not addressable (R40) -/
  pendingCmd : Word
  /-- BOOT_BUF, DATA_BUF and OUT_BUF (R30 to R32) -/
  mem : Memory
  /-- The model's own: which reset's draws the unwritten buffer bytes hold (R161). -/
  resetDraw : Nat
  /-- The model's own: how many draws busy reads have taken (R59). -/
  busyDraw : Nat
  /-- The model's own: the host's, the scheduler's and the platform's coming steps, next first (R60). -/
  agenda : List Event
  /-- The model's own: the responses the host received, latest first (R50). -/
  responses : List BusResponse
deriving DecidableEq, Repr

/-- What stops the machine: nothing does. A bus error is a response (R58) and a command error is
recorded in STATUS, ERR_CODE and ERR_CMD (R140), so this type has no constructor. -/
inductive Fault where
deriving DecidableEq, Repr

/-- Why an instruction is not run. -/
inductive Refusal where
  /-- An arm of `exec` for an instruction that has no meaning yet. Raised by no arm: all five commands
  are modelled. Safe. -/
  | notModelled (mnemonic : String)
deriving DecidableEq, Repr

/-- The state after reset (R160): idle, nothing pending, no buffer byte written. The agenda and the
response log, the model's own, are empty. -/
def State.reset : State where
  bootEn := true
  emptyBlk := false
  busy := false
  active := false
  done := false
  err := false
  bootOk := false
  outValid := false
  region := .boot
  errCode := 0#8
  errCmd := 0#32
  bootLen := 0#32
  progLen := 0#32
  bootBase := Config.bootBaseReset
  progBase := Config.progBaseReset
  familyId := Config.familyIdReset
  crcResult := 0#32
  totalBlocks := 0#32
  blockIndex := 0#32
  regionPos := 0#32
  pendingCmd := 0#32
  mem := []
  resetDraw := 0
  busyDraw := 0
  agenda := []
  responses := []

end Sys2Proof.Machine
end

