-- ==== Sys2Proof/Machine/Flags.lean ====
section
/-! DEFINITION. The words the host sees of the fields State keeps apart: CTRL, STATUS and ERR_CODE, with
their reserved bits read as zero and writes to them ignored (spec/10_state.md R23, R25, R26, R45). -/

namespace Sys2Proof.Machine

/-- REGION as bit 6 holds it: BOOT is 0, PROG is 1 (R25). -/
def Region.toBit : Region → Bool
  | .boot => false
  | .prog => true

/-- A read of CTRL: BOOT_EN in bit 0, EMPTY_BLK in bit 1, bits 31:2 zero (R23, R45). -/
def ctrlWord (s : State) : Word :=
  BitVec.ofNat 32 (s.bootEn.toNat + 2 * s.emptyBlk.toNat)

/-- A write of CTRL keeps bits 1:0 of the word and ignores the rest (R12, R23, R45). -/
def writeCtrl (w : Word) (s : State) : State :=
  { s with bootEn := w.getLsbD 0, emptyBlk := w.getLsbD 1 }

/-- A read of STATUS: the seven flags in bits 6:0, bits 31:7 zero (R25). -/
def statusWord (s : State) : Word :=
  BitVec.ofNat 32 (s.busy.toNat + 2 * s.active.toNat + 4 * s.done.toNat + 8 * s.err.toNat
    + 16 * s.bootOk.toNat + 32 * s.outValid.toNat + 64 * s.region.toBit.toNat)

/-- A read of ERR_CODE: CODE in bits 7:0, bits 31:8 zero (R26). -/
def errCodeWord (s : State) : Word := s.errCode.setWidth 32

end Sys2Proof.Machine
end

