-- ==== Sys2Proof/Machine/Ops.lean ====
section
/-! DEFINITION. The operations every rule shares: byte order and buffer access (spec/00_scope.md R13,
spec/20_memory.md R53, R54), raising a command error and clearing it (spec/60_exceptions.md R140,
spec/42_control.md R122), the frame of an engine step (R121), and the platform's reset
(spec/70_reset_and_hazards.md R160). -/

namespace Sys2Proof.Machine

/-! ### Byte order -/

/-- The `n` bytes of `v`, least significant first: what `MemWrite` stores (R13). -/
def leBytes : Nat → Nat → List Byte
  | 0, _ => []
  | n + 1, v => BitVec.ofNat 8 v :: leBytes n (v / 256)

/-- The value of a byte sequence, least significant byte first: what `MemRead` answers (R13). -/
def leValue : List Byte → Nat
  | [] => 0
  | b :: bs => b.toNat + 256 * leValue bs

/-- `LE32(v)` (R13). -/
def le32 (v : Word) : List Byte := leBytes 4 v.toNat

/-! ### Memory -/

/-- The first window offset of a buffer (R52). -/
def Buffer.base : Buffer → Nat
  | .boot => 0x100
  | .data => 0x200
  | .out => 0x400

/-- The size of a buffer in bytes (R30 to R32). -/
def Buffer.size : Buffer → Nat
  | .boot => 256
  | .data => 256
  | .out => 512

/-- The window offsets that have storage (R52). -/
def isBufferOffset (a : Nat) : Bool :=
  decide ((0x100 ≤ a ∧ a < 0x300) ∨ (0x400 ≤ a ∧ a < 0x600))

/-- The canonical form of a memory: offsets strictly rising, each of them a buffer's. An entry is a
written byte and an unlisted byte is an unwritten one, so no entry can equal what an unlisted
offset holds, which is nothing. -/
abbrev Memory.wf (m : Memory) : Prop :=
  m.Pairwise (fun c d => c.1 < d.1) ∧ ∀ c ∈ m, isBufferOffset c.1 = true

/-- The byte written at a window offset, if any was. -/
def Memory.cell : Memory → Nat → Option Byte
  | [], _ => none
  | c :: m, a => if c.1 = a then some c.2 else Memory.cell m a

/-- The cells of a byte sequence placed at an offset. -/
def cellsAt : Nat → List Byte → Memory
  | _, [] => []
  | a, b :: bs => (a, b) :: cellsAt (a + 1) bs

/-- Store a byte sequence at consecutive offsets. -/
def Memory.writeBytes (m : Memory) (a : Nat) (bs : List Byte) : Memory :=
  m.filter (fun c => decide (c.1 < a)) ++ cellsAt a bs
    ++ m.filter (fun c => decide (a + bs.length ≤ c.1))

/-- What an unwritten buffer byte holds: its draw of the last reset, the same at every read (R161). -/
def unwrittenByte (s : State) (a : Nat) : Byte := Config.bufferDraw s.resetDraw a

/-- The byte at a window offset. -/
def byteAt (s : State) (a : Nat) : Byte := (Memory.cell s.mem a).getD (unwrittenByte s a)

/-- `BUF[off .. off+n)` (R12). -/
def bufBytes (b : Buffer) (off n : Nat) (s : State) : List Byte :=
  (List.range n).map (fun k => byteAt s (b.base + off + k))

/-- Store a byte sequence into a buffer at `off`. -/
def storeBytes (b : Buffer) (off : Nat) (bs : List Byte) (s : State) : State :=
  { s with mem := Memory.writeBytes s.mem (b.base + off) bs }

/-- `MemRead(BUF, off, n)` (R13). -/
def memRead (b : Buffer) (off n : Nat) (s : State) : Nat := leValue (bufBytes b off n s)

/-- `MemWrite(BUF, off, n, v)` (R13). -/
def memWrite (b : Buffer) (off n v : Nat) (s : State) : State := storeBytes b off (leBytes n v) s

/-! ### Command errors -/

/-- The codes of R131. -/
def CommandError.code : CommandError → Byte
  | .malformedBootloader => 1#8
  | .payloadTooLarge => 2#8
  | .invalidConfiguration => 3#8
  | .illegalCommand => 4#8
  | .sequenceError => 5#8
  | .addressOverflow => 6#8

/-- `raise E(w)` (R140): the error, its code and the command word are recorded, and nothing else. The
block's only form of exception entry (R144). -/
def raise (e : CommandError) (w : Word) (s : State) : State :=
  { s with err := true, errCode := e.code, errCmd := w }

/-- The return from the error state, the first three lines of CLEAR (R122, R145). -/
def clearError (s : State) : State :=
  { s with err := false, errCode := 0#8, errCmd := 0#32 }

/-! ### The frame of an engine step -/

/-- `STATUS.BUSY <- 0`, the last line of every engine step (R121). -/
def complete (s : State) : State := { s with busy := false }

/-- A command in its engine step: skipped while an error is pending, and BUSY falls either way (R121). -/
def runCommand (body : State → State) (s : State) : State :=
  complete (if s.err then s else body s)

/-- A command that runs even while an error is pending (CLEAR, R121). -/
def runAlways (body : State → State) (s : State) : State := complete (body s)

/-! ### Reset and responses -/

/-- The platform's reset input (R160): every register at its reset value, the pending command abandoned,
and every buffer byte a new draw (R161). What the host still plans and what it has seen are not the
block's. -/
def hardReset (s : State) : State :=
  { State.reset with
    resetDraw := s.resetDraw + 1
    busyDraw := s.busyDraw
    agenda := s.agenda
    responses := s.responses }

/-- Complete a bus transaction with its response (R50). -/
def respond (r : BusResponse) (s : State) : State := { s with responses := r :: s.responses }

end Sys2Proof.Machine
end

