-- ==== Sys2Proof/Machine/Bus.lean ====
section
/-! DEFINITION. The host agent's step: bus transactions on the register window (spec/20_memory.md). -/

namespace Sys2Proof.Machine

/-! ### The address map -/

/-- The registers of R52 by offset. -/
def registerAt (off : Nat) : Option Reg :=
  match off with
  | 0x000 => some .ctrl
  | 0x004 => some .cmd
  | 0x008 => some .status
  | 0x00C => some .errCode
  | 0x010 => some .errCmd
  | 0x014 => some .bootLen
  | 0x018 => some .progLen
  | 0x01C => some .bootBase
  | 0x020 => some .progBase
  | 0x024 => some .familyId
  | 0x028 => some .crcResult
  | 0x02C => some .totalBlocks
  | 0x030 => some .blockIndex
  | 0x034 => some .regionPos
  | _ => none

/-- The buffer windows of R52. -/
def windowAt (off : Nat) : Option Buffer :=
  if 0x100 ≤ off ∧ off ≤ 0x1FF then some .boot
  else if 0x200 ≤ off ∧ off ≤ 0x2FF then some .data
  else if 0x400 ≤ off ∧ off ≤ 0x5FF then some .out
  else none

/-- What an offset names; any offset not listed in R52 is unmapped. Word `k` of a window is
`k = (off - W) / 4` (R53). -/
def busTarget (off : Offset) : Option Target :=
  match registerAt off.toNat with
  | some r => some (.reg r)
  | none => (windowAt off.toNat).map (fun b => .word b ((off.toNat - b.base) / 4))

/-- The access class of a register (R23 to R29, R33 to R39). -/
def Reg.access : Reg → Access
  | .ctrl => .rwLocked
  | .cmd => .wo
  | .status => .ro
  | .errCode => .ro
  | .errCmd => .ro
  | .bootLen => .rwLocked
  | .progLen => .rwLocked
  | .bootBase => .rwLocked
  | .progBase => .rwLocked
  | .familyId => .rwLocked
  | .crcResult => .ro
  | .totalBlocks => .ro
  | .blockIndex => .ro
  | .regionPos => .ro

/-- The access class of a mapped offset (R52). -/
def Target.access : Target → Access
  | .reg r => r.access
  | .word .boot _ => .rwLocked
  | .word .data _ => .rw
  | .word .out _ => .ro

/-- The checks of R58, in its order: the first condition that holds, or what the offset names. -/
def busCheck (isWrite : Bool) (off : Offset) (s : State) : Except BusError Target :=
  if off.toNat % 4 ≠ 0 then .error .misaligned
  else
    match busTarget off with
    | none => .error .unmapped
    | some t =>
      if isWrite && s.busy then .error .writeWhileBusy
      else if isWrite && decide (t.access = .ro) then .error .writeReadOnly
      else if isWrite && decide (t.access = .rwLocked) && s.active then .error .writeLocked
      else .ok t

/-! ### Reads -/

/-- The value a read of a register returns; CMD reads as zero (R22, R24). -/
def readRegister (r : Reg) (s : State) : Word :=
  match r with
  | .ctrl => ctrlWord s
  | .cmd => 0#32
  | .status => statusWord s
  | .errCode => errCodeWord s
  | .errCmd => s.errCmd
  | .bootLen => s.bootLen
  | .progLen => s.progLen
  | .bootBase => s.bootBase
  | .progBase => s.progBase
  | .familyId => s.familyId
  | .crcResult => s.crcResult
  | .totalBlocks => s.totalBlocks
  | .blockIndex => s.blockIndex
  | .regionPos => s.regionPos

/-- The value a read returns while BUSY = 0; a window word is `MemRead(BUF, 4k, 4)` (R53). -/
def readTarget (t : Target) (s : State) : Word :=
  match t with
  | .reg r => readRegister r s
  | .word b k => BitVec.ofNat 32 (memRead b (4 * k) 4 s)

/-- A read that R58 does not refuse: exact for STATUS, a fresh draw for anything else while BUSY = 1
(R59). -/
def acceptRead (t : Target) (s : State) : State :=
  if s.busy && decide (t ≠ .reg .status) then
    respond (.okayRead (Config.busyReadDraw s.busyDraw)) { s with busyDraw := s.busyDraw + 1 }
  else respond (.okayRead (readTarget t s)) s

/-! ### Writes -/

/-- The effect of an accepted write of a register: CMD latches the command and sets BUSY (R120),
BOOT_LEN also clears BOOT_OK (R46). A read-only register is never reached (R58). -/
def writeRegister (r : Reg) (w : Word) (s : State) : State :=
  match r with
  | .ctrl => writeCtrl w s
  | .cmd => { s with pendingCmd := w, busy := true }
  | .bootLen => { s with bootLen := w, bootOk := false }
  | .progLen => { s with progLen := w }
  | .bootBase => { s with bootBase := w }
  | .progBase => { s with progBase := w }
  | .familyId => { s with familyId := w }
  | .status => s
  | .errCode => s
  | .errCmd => s
  | .crcResult => s
  | .totalBlocks => s
  | .blockIndex => s
  | .regionPos => s

/-- `MemWrite(BUF, 4k, 4, data)` (R53). -/
def writeWindowWord (b : Buffer) (k : Nat) (w : Word) (s : State) : State :=
  memWrite b (4 * k) 4 w.toNat s

/-- The effect of an accepted write: BOOT_BUF also clears BOOT_OK (R46); OUT_BUF is never reached (R58). -/
def writeTarget (t : Target) (w : Word) (s : State) : State :=
  match t with
  | .reg r => writeRegister r w s
  | .word .boot k => { writeWindowWord .boot k w s with bootOk := false }
  | .word .data k => writeWindowWord .data k w s
  | .word .out _ => s

/-- A write that R58 does not refuse, with its response. -/
def acceptWrite (t : Target) (w : Word) (s : State) : State :=
  respond .okayWrite (writeTarget t w s)

/-! ### Transactions -/

/-- `BusRead(off)` (R50). -/
def busRead (off : Offset) (s : State) : State :=
  match busCheck false off s with
  | .error _ => respond .error s
  | .ok t => acceptRead t s

/-- `BusWrite(off, data)` (R50). -/
def busWrite (off : Offset) (w : Word) (s : State) : State :=
  match busCheck true off s with
  | .error _ => respond .error s
  | .ok t => acceptWrite t w s

/-- One host step (R50). An access narrower than a word is a bus error (R56). -/
def busTransaction (t : BusTxn) (s : State) : State :=
  match t with
  | .read off => busRead off s
  | .write off w => busWrite off w s
  | .narrow _ => respond .error s

/-! ### The platform's address map -/

/-- The window offset of a platform address: the window's 4096 bytes start at `U2E_BASE` (R8, R51). -/
def windowOffset (addr : Nat) : Option Offset :=
  if Config.u2eBase ≤ addr ∧ addr < Config.u2eBase + 4096 then
    some (BitVec.ofNat 12 (addr - Config.u2eBase))
  else none

end Sys2Proof.Machine
end

