-- ==== Sys2Proof/WellFormed.lean ====
section
/-! DEFINITION. What is well formed. A command has no operands (spec/30_encoding.md R73), so every term of
`Instr` is well formed; what can be ill formed is the 32-bit command word, whose two checks are
spec/30_encoding.md R72's. -/

namespace Sys2Proof

/-- No command has an operand that could be out of range (R73), so there is nothing to check. -/
def Instr.wf : Instr → Bool
  | .inject => true
  | .verify => true
  | .start => true
  | .emit => true
  | .clear => true

/-- First check of R72: the reserved bits 31:8 are zero. -/
def commandReservedClear (w : Word) : Bool := decide (w.toNat / 256 = 0)

/-- Second check of R72: the opcode in bits 7:0 is one of 0x01 to 0x05. -/
def commandOpcodeDefined (w : Word) : Bool := decide (1 ≤ w.toNat % 256 ∧ w.toNat % 256 ≤ 5)

/-- A command word is legal if and only if both checks hold (R72). -/
def commandLegal (w : Word) : Bool := commandReservedClear w && commandOpcodeDefined w

end Sys2Proof
end

