-- ==== Sys2Proof/Decode.lean ====
section
/-! DEFINITION. The command word's decoder, total on every 32-bit word and rejecting by name, and the
encoder written from the same opcode map (spec/30_encoding.md R70 to R72). -/

namespace Sys2Proof

/-- Why a word is no command (R72). -/
inductive DecodeError where
  /-- RSV, bits 31:8, is not zero. -/
  | reservedBits (rsv : BitVec 24)
  /-- OP, bits 7:0, is 0x00 or 0x06 to 0xFF. -/
  | undefinedOpcode (op : Byte)
deriving DecidableEq, Repr

/-- The answer of the decoder. -/
inductive Decoded where
  | command (i : Instr)
  | rejected (why : DecodeError)
deriving DecidableEq, Repr

/-- OP, bits 7:0 of a command word (R70). -/
def opField (w : Word) : Byte := w.extractLsb' 0 8

/-- RSV, bits 31:8 of a command word (R70). -/
def rsvField (w : Word) : BitVec 24 := w.extractLsb' 8 24

/-- The opcode map (R71). -/
def opcodeCommand (op : Byte) : Option Instr :=
  match op.toNat with
  | 0x01 => some .inject
  | 0x02 => some .verify
  | 0x03 => some .start
  | 0x04 => some .emit
  | 0x05 => some .clear
  | _ => none

/-- Decode a command word: exact on all 32 bits (R72). -/
def decode (w : Word) : Decoded :=
  if rsvField w ≠ 0#24 then .rejected (.reservedBits (rsvField w))
  else
    match opcodeCommand (opField w) with
    | some i => .command i
    | none => .rejected (.undefinedOpcode (opField w))

/-- The opcode of a command (R71). -/
def opcodeOf : Instr → Byte
  | .inject => 0x01#8
  | .verify => 0x02#8
  | .start => 0x03#8
  | .emit => 0x04#8
  | .clear => 0x05#8

/-- The word of a command: OP in bits 7:0 and zeros in bits 31:8 (R70, R71). -/
def encode (i : Instr) : Word := 0#24 ++ opcodeOf i

/-- The instruction of a decoder's answer, if there is one. -/
def Decoded.instr? : Decoded → Option Instr
  | .command i => some i
  | .rejected _ => none

/-- The host's question about one row of the opcode table. Every command is exactly one 32-bit word
(R70), handed to the block as the data of one bus write, so the bits need no further layout. -/
def decodeTableWord (_nbits w : Nat) : Option Instr :=
  if w < 2 ^ 32 then (decode (BitVec.ofNat 32 w)).instr? else none

end Sys2Proof
end

