-- ==== Sys2Proof/Machine/Operands.lean ====
section
/-! DEFINITION. The operands commands take. A command word has no operand fields: every operand is a
register or buffer read when the engine step runs (spec/30_encoding.md R73). -/

namespace Sys2Proof.Machine

/-- `BOOT_BUF[0..252)`, the bytes the checksum covers (R77, R92). -/
def bootBody (s : State) : List Byte := bufBytes .boot 0 Config.crcOffset s

/-- `BOOT_BUF[0..256)`, the boot image (R30, R77). -/
def bootImage (s : State) : List Byte := bufBytes .boot 0 Config.bootImageSize s

/-- `MemRead(BOOT_BUF, 252, 4)`, the stored checksum (R93). -/
def storedChecksum (s : State) : Nat := memRead .boot Config.crcOffset Config.crcWidth s

/-- `BootLenOK` (R91). -/
def bootLenOk (s : State) : Bool := decide (s.bootLen = BitVec.ofNat 32 Config.bootImageSize)

/-- `ceil(a / b)` for `b > 0` (R11). -/
def ceilDiv (a b : Nat) : Nat := (a + (b - 1)) / b

/-- `nb` of `BlockCount` (R100). -/
def bootRegionBlocks (s : State) : Nat := if s.bootEn then 1 else 0

/-- `np` of `BlockCount` (R100). -/
def progRegionBlocks (s : State) : Nat :=
  if s.progLen.toNat = 0 then (if s.emptyBlk then 1 else 0)
  else ceilDiv s.progLen.toNat Config.dataChunkSize

/-- `nb + np`, the total of `BlockCount` (R100). -/
def passBlocks (s : State) : Nat := bootRegionBlocks s + progRegionBlocks s

/-- `len` of `NextChunk` (R103). -/
def chunkLen (s : State) : Nat :=
  match s.region with
  | .boot => Config.bootImageSize
  | .prog => min Config.dataChunkSize (s.progLen.toNat - s.regionPos.toNat)

/-- `addr` of `NextChunk`: region base plus offset within the region, mod 2^32 (R103). -/
def chunkAddr (s : State) : Word :=
  match s.region with
  | .boot => s.bootBase + s.regionPos
  | .prog => s.progBase + s.regionPos

/-- `data` of `NextChunk` (R103). -/
def chunkData (s : State) : List Byte :=
  match s.region with
  | .boot => bootImage s
  | .prog => bufBytes .data 0 (chunkLen s) s

end Sys2Proof.Machine
end

