-- ==== Sys2Proof/Machine/Control.lean ====
section
/-! DEFINITION. The control family: CLEAR, and the engine step of a word that is no command
(spec/42_control.md R121, R122). -/

namespace Sys2Proof.Machine

/-- The pass state back to idle: CLEAR's lines after the error registers (R122). -/
def clearPass (s : State) : State :=
  { s with
    active := false
    done := false
    outValid := false
    region := .boot
    totalBlocks := 0#32
    blockIndex := 0#32
    regionPos := 0#32 }

/-- `CLEAR(w)` (R122). -/
def clear (s : State) : State := clearPass (clearError s)

/-- The engine step of CLEAR, which runs whatever STATUS.ERR holds (R121, R122). -/
def execClear (s : State) : Host.Outcome State Fault Refusal :=
  .next (runAlways clear s)

/-- The engine step of an illegal word `w`: IllegalCommand, unless an error is pending (R72, R121). -/
def illegalCommand (w : Word) (s : State) : State :=
  runCommand (raise .illegalCommand w) s

end Sys2Proof.Machine
end

