-- ==== Sys2Proof/Machine/Encoder.lean ====
section
/-! DEFINITION. The UF2 encoder family: START and EMIT (spec/41_uf2_encoder.md), and the record EMIT
builds (spec/30_encoding.md R74, R75). -/

namespace Sys2Proof.Machine

/-- `zeros(n)` (R13). -/
def zeros (n : Nat) : List Byte := List.replicate n 0#8

/-- `Serialize(addr, len, i, total, fam, data)` (R101), the record of R74. -/
def serialize (addr : Word) (len : Nat) (i total fam : Word) (data : List Byte) : List Byte :=
  le32 Config.uf2MagicStart0 ++ le32 Config.uf2MagicStart1 ++ le32 Config.uf2Flags
    ++ le32 addr ++ le32 (BitVec.ofNat 32 len) ++ le32 i ++ le32 total ++ le32 fam
    ++ data ++ zeros (Config.uf2DataCapacity - len)
    ++ le32 Config.uf2MagicEnd

/-- A region has a byte whose target address is above 0xFFFFFFFF: the bootloader region (R104, R110). -/
def bootRegionOverflows (s : State) : Bool :=
  decide (bootRegionBlocks s = 1 ∧ s.bootBase.toNat + 255 > 0xFFFFFFFF)

/-- The same of the program region (R104, R110). -/
def progRegionOverflows (s : State) : Bool :=
  decide (s.progLen.toNat > 0 ∧ s.progBase.toNat + s.progLen.toNat - 1 > 0xFFFFFFFF)

/-- The writes of a successful START (R104). -/
def beginPass (s : State) : State :=
  { s with
    totalBlocks := BitVec.ofNat 32 (passBlocks s)
    blockIndex := 0#32
    regionPos := 0#32
    region := if bootRegionBlocks s = 1 then .boot else .prog
    outValid := false
    active := decide (passBlocks s ≠ 0)
    done := decide (passBlocks s = 0) }

/-- `START(w)` (R104), its checks in the order of R142. -/
def start (w : Word) (s : State) : State :=
  if s.active then raise .sequenceError w s
  else if s.bootEn && !bootLenOk s then raise .malformedBootloader w s
  else if s.bootEn && !s.bootOk then raise .sequenceError w s
  else if passBlocks s > 0xFFFFFFFF then raise .payloadTooLarge w s
  else if bootRegionOverflows s then raise .addressOverflow w s
  else if progRegionOverflows s then raise .addressOverflow w s
  else beginPass s

/-- The record the next EMIT builds from the sequencer, the bases and the buffers (R103, R105). -/
def nextBlock (s : State) : List Byte :=
  serialize (chunkAddr s) (chunkLen s) s.blockIndex s.totalBlocks s.familyId (chunkData s)

/-- The sequencer's move past one block, with the flags of R105: the integer `i + 1` is compared with
TOTAL_BLOCKS, the registers truncate (R11). -/
def advance (s : State) : State :=
  { s with
    blockIndex := s.blockIndex + 1#32
    region := .prog
    regionPos := match s.region with
      | .boot => 0#32
      | .prog => s.regionPos + BitVec.ofNat 32 (chunkLen s)
    outValid := true
    active := if s.blockIndex.toNat + 1 = s.totalBlocks.toNat then false else s.active
    done := if s.blockIndex.toNat + 1 = s.totalBlocks.toNat then true else s.done }

/-- `EMIT(w)` (R105): the whole of OUT_BUF is written, from the state before the EMIT. -/
def emit (w : Word) (s : State) : State :=
  if s.active = false then raise .sequenceError w s
  else storeBytes .out 0 (nextBlock s) (advance s)

/-- The engine step of START (R104, R121). -/
def execStart (s : State) : Host.Outcome State Fault Refusal :=
  .next (runCommand (start (encode .start)) s)

/-- The engine step of EMIT (R105, R121). -/
def execEmit (s : State) : Host.Outcome State Fault Refusal :=
  .next (runCommand (emit (encode .emit)) s)

end Sys2Proof.Machine
end

