-- ==== Sys2Proof/Machine/Injector.lean ====
section
/-! DEFINITION. The checksum injector family: the CRC, INJECT and VERIFY (spec/40_crc_injector.md). -/

namespace Sys2Proof.Machine

/-- `n` iterations of R90's inner loop. -/
def crcBits : Nat → Word → Word
  | 0, crc => crc
  | n + 1, crc =>
    if crc.msb then crcBits n ((crc <<< 1) ^^^ Config.crcPoly) else crcBits n (crc <<< 1)

/-- One byte step of R90: the byte enters at bits 31:24, then eight iterations. -/
def crcByte (crc : Word) (b : Byte) : Word := crcBits 8 (crc ^^^ (b.setWidth 32 <<< 24))

/-- `CRC32(s)` (R90). -/
def crc32 (bs : List Byte) : Word := bs.foldl crcByte Config.crcInit ^^^ Config.crcXorOut

/-- `T[n]` of R98: the inner loop started from `zext_32(n) << 24`. -/
def crcTable (n : Byte) : Word := crcBits 8 (n.setWidth 32 <<< 24)

/-- The byte step of R98's table form. -/
def crcByteTable (crc : Word) (b : Byte) : Word :=
  (crc <<< 8) ^^^ crcTable ((crc >>> 24).setWidth 8 ^^^ b)

/-- The CRC in R98's table form. -/
def crc32Table (bs : List Byte) : Word := bs.foldl crcByteTable Config.crcInit ^^^ Config.crcXorOut

/-- The writes of a successful INJECT (R92). -/
def injectChecksum (s : State) : State :=
  let c := crc32 (bootBody s)
  { memWrite .boot Config.crcOffset Config.crcWidth c.toNat s with crcResult := c, bootOk := true }

/-- `INJECT(w)` (R92). -/
def inject (w : Word) (s : State) : State :=
  if s.active then raise .sequenceError w s
  else if bootLenOk s = false then raise .malformedBootloader w s
  else injectChecksum s

/-- The writes of a successful VERIFY (R93). -/
def checkChecksum (s : State) : State :=
  let c := crc32 (bootBody s)
  { s with crcResult := c, bootOk := decide (storedChecksum s = c.toNat) }

/-- `VERIFY(w)` (R93). A mismatch is no error, and an active pass does not forbid it. -/
def verify (w : Word) (s : State) : State :=
  if bootLenOk s = false then raise .malformedBootloader w s
  else checkChecksum s

/-- The engine step of INJECT (R92, R121). -/
def execInject (s : State) : Host.Outcome State Fault Refusal :=
  .next (runCommand (inject (encode .inject)) s)

/-- The engine step of VERIFY (R93, R121). -/
def execVerify (s : State) : Host.Outcome State Fault Refusal :=
  .next (runCommand (verify (encode .verify)) s)

end Sys2Proof.Machine
end

