-- ==== Sys2Proof/Machine/Dispatch.lean ====
section
/-! DEFINITION. The dispatch of a decoded command to its meaning (spec/42_control.md R121). -/

namespace Sys2Proof.Machine

def exec (i : Instr) (s : State) : Host.Outcome State Fault Refusal :=
  match i with
  | .inject => Sys2Proof.Machine.execInject s
  | .verify => Sys2Proof.Machine.execVerify s
  | .start => Sys2Proof.Machine.execStart s
  | .emit => Sys2Proof.Machine.execEmit s
  | .clear => Sys2Proof.Machine.execClear s

end Sys2Proof.Machine
end

