-- ==== Sys2Proof/Machine/Engine.lean ====
section
/-! DEFINITION. The engine agent's step (spec/42_control.md R121). -/

namespace Sys2Proof.Machine

/-- `EngineStep()`: execute the latched word (R121). -/
def engineStep (s : State) : Host.Outcome State Fault Refusal :=
  match decode s.pendingCmd with
  | .command i => exec i s
  | .rejected _ => .next (illegalCommand s.pendingCmd s)

/-- The engine is given a turn: its step is enabled exactly while BUSY = 1, and otherwise the block is
idle and all state is retained (R60, R121, R154). -/
def engineTurn (s : State) : Host.Outcome State Fault Refusal :=
  if s.busy then engineStep s else .next s

end Sys2Proof.Machine
end

