-- ==== Sys2Proof/Machine/Step.lean ====
section
/-! DEFINITION. One step of the model: the next event of the interleaving of host and engine
(spec/20_memory.md R60, spec/60_exceptions.md R150). -/

namespace Sys2Proof.Machine

/-- The agenda says whose step is next. When the host has no more to do, a latched command still takes
its engine step (R152, R171), and an idle block stays as it is (R154). -/
def step (s : State) : Host.Outcome State Fault Refusal :=
  match s.agenda with
  | .host t :: rest => .next (busTransaction t { s with agenda := rest })
  | .engineTurn :: rest => engineTurn { s with agenda := rest }
  | .reset :: rest => .next (hardReset { s with agenda := rest })
  | [] => engineTurn s

/-- Place a command word where the engine takes its next command: latched in PENDING_CMD with BUSY = 1
(R120), and the very next turn the engine's. -/
def State.withFetchWord (s : State) (_nbits w : Nat) : State :=
  { s with pendingCmd := BitVec.ofNat 32 w, busy := true, agenda := .engineTurn :: s.agenda }

end Sys2Proof.Machine
end

