-- ==== Sys2Proof/Safety.lean ====
section
/-! DEFINITION. The terms claims use: the block's own part of a state, the invariant every step keeps,
reachability, the address map as sets of offsets, and a whole encoding pass. -/

namespace Sys2Proof.Machine

/-! ### The block's own state -/

/-- The state without what is the model's own record of the host: its coming steps, the responses it
got, and the count of busy-read draws. The block's state is unchanged if this is. -/
def blockState (s : State) : State := { s with agenda := [], responses := [], busyDraw := 0 }

/-- What a command that raises leaves: ERR, ERR_CODE and ERR_CMD written, BUSY 0, nothing else (R140). -/
def failedWith (code : Byte) (w : Word) (s : State) : State :=
  { s with busy := false, err := true, errCode := code, errCmd := w }

/-- The stored checksum field is the CRC of the bytes it covers (R94). -/
def checksumValid (s : State) : Prop :=
  leValue (bufBytes .boot 252 4 s) = (crc32 (bufBytes .boot 0 252 s)).toNat

/-- The sequencer state of R41 is the same in both states. -/
structure SameSequencer (s t : State) : Prop where
  active : t.active = s.active
  done : t.done = s.done
  region : t.region = s.region
  regionPos : t.regionPos = s.regionPos
  blockIndex : t.blockIndex = s.blockIndex
  totalBlocks : t.totalBlocks = s.totalBlocks

/-- The engine's step, if it is enabled, stores at window offset `a`: an INJECT that succeeds writes the
checksum field, an EMIT that succeeds writes OUT_BUF, and nothing else stores (R44, R67, R92, R105). -/
def engineStoresAt (a : Nat) (s : State) : Prop :=
  s.busy = true ∧ s.err = false ∧
    ((s.pendingCmd = 1#32 ∧ s.active = false ∧ s.bootLen = 256#32 ∧ 0x1FC ≤ a ∧ a < 0x200) ∨
      (s.pendingCmd = 4#32 ∧ s.active = true ∧ 0x400 ≤ a ∧ a < 0x600))

/-- The next step stores at window offset `a`: an accepted host write of its word (R53), or the engine. -/
def stepStoresAt (a : Nat) (s : State) : Prop :=
  match s.agenda with
  | .host (.write off _) :: _ =>
    (∃ u, busCheck true off s = .ok u) ∧ off.toNat ≤ a ∧ a < off.toNat + 4
  | .host (.read _) :: _ => False
  | .host (.narrow _) :: _ => False
  | .reset :: _ => False
  | .engineTurn :: _ => engineStoresAt a s
  | [] => engineStoresAt a s

/-! ### The invariant -/

/-- What every step keeps. The sequencer's six clauses are R41's 1 to 6; the others carry them (the
counters agree with the block count of R100 and with the locked configuration of R168), say what
BOOT_OK stands for (R46, R94), and say what the error registers hold (R131, R140). -/
structure BlockInv (s : State) : Prop where
  memory : Memory.wf s.mem
  notActiveAndDone : ¬(s.active = true ∧ s.done = true)
  indexLeTotal : s.blockIndex.toNat ≤ s.totalBlocks.toNat
  activeIndexLt : s.active = true → s.blockIndex.toNat < s.totalBlocks.toNat
  activeBoot : s.active = true → s.region = .boot →
    s.blockIndex = 0#32 ∧ s.regionPos = 0#32 ∧ s.bootEn = true
  activeProg : s.active = true → s.region = .prog →
    s.regionPos.toNat % 256 = 0 ∧
      (s.regionPos.toNat < s.progLen.toNat ∨ (s.progLen = 0#32 ∧ s.regionPos = 0#32))
  doneIndex : s.done = true → s.blockIndex = s.totalBlocks
  activeTotal : s.active = true → s.totalBlocks.toNat = passBlocks s
  activeProgIndex : s.active = true → s.region = .prog →
    s.blockIndex.toNat = bootRegionBlocks s + s.regionPos.toNat / 256
  activeBootRange : s.active = true → s.bootEn = true → s.bootBase.toNat + 255 ≤ 0xFFFFFFFF
  activeProgRange : s.active = true → 0 < s.progLen.toNat →
    s.progBase.toNat + s.progLen.toNat - 1 ≤ 0xFFFFFFFF
  activeBootOk : s.active = true → s.bootEn = true → s.bootOk = true
  bootOkLength : s.bootOk = true → s.bootLen = 256#32
  bootOkChecksum : s.bootOk = true → checksumValid s
  bootOkResult : s.bootOk = true → s.crcResult = crc32 (bufBytes .boot 0 252 s)
  noErrorRegisters : s.err = false → s.errCode = 0#8 ∧ s.errCmd = 0#32
  errorCodes : s.err = true →
    s.errCode = 1#8 ∨ s.errCode = 4#8 ∨ s.errCode = 5#8 ∨ s.errCode = 6#8

/-- A state some run reaches: from reset, by steps of the model, with the host free to choose its coming
transactions, the engine's turns and the platform's resets at any time (R60, R151). -/
inductive Reachable : State → Prop where
  | reset : Reachable State.reset
  | plan (s : State) (events : List Event) : Reachable s → Reachable { s with agenda := events }
  | step (s t : State) : Reachable s → step s = .next t → Reachable t

/-- The run has ended: the host has no step left and the engine has none enabled, R152's quiescent block.
DESIGN CHOICE (assumption 17): R152 also asks that the last STATUS read returned BUSY = 0, and leaves open a
run without such a read; no read is required here. -/
def runEnded (s : State) : Prop := s.agenda = [] ∧ s.busy = false

/-! ### The address map as sets of offsets (R52) -/

/-- The offset is listed in R52. -/
def mappedOffset (off : Nat) : Bool :=
  decide (off < 0x038 ∨ (0x100 ≤ off ∧ off < 0x300) ∨ (0x400 ≤ off ∧ off < 0x600))

/-- The offset is an RO register's or OUT_BUF's. -/
def readOnlyOffset (off : Nat) : Bool :=
  decide ((0x008 ≤ off ∧ off < 0x014) ∨ (0x028 ≤ off ∧ off < 0x038) ∨ (0x400 ≤ off ∧ off < 0x600))

/-- The offset is an RW-L register's or BOOT_BUF's. -/
def lockedOffset (off : Nat) : Bool :=
  decide (off < 0x004 ∨ (0x014 ≤ off ∧ off < 0x028) ∨ (0x100 ≤ off ∧ off < 0x200))

/-- An accepted write of BOOT_BUF or BOOT_LEN: the writes that R46 lets clear BOOT_OK. -/
def acceptedBootWrite (t : BusTxn) (s : State) : Prop :=
  match t with
  | .write off _ =>
    busCheck true off s = .ok (.reg .bootLen) ∨ ∃ k, busCheck true off s = .ok (.word .boot k)
  | .read _ => False
  | .narrow _ => False

/-! ### Records and passes (R74, R106, R107) -/

/-- OUT_BUF holds the record of R74 with these field values: the eight header words, `data` in the first
`len` bytes of the data region, zeros in the rest of it (R75), and the end magic. -/
structure OutBufHolds (addr len index total family : Nat) (data : List Byte) (t : State) : Prop where
  magic0 : memRead .out 0 4 t = 0x0A324655
  magic1 : memRead .out 4 4 t = 0x9E5D5157
  flags : memRead .out 8 4 t = 0x00002000
  targetAddress : memRead .out 12 4 t = addr
  payloadLength : memRead .out 16 4 t = len
  blockIndex : memRead .out 20 4 t = index
  totalBlocks : memRead .out 24 4 t = total
  familyId : memRead .out 28 4 t = family
  chunk : bufBytes .out 32 len t = data
  padding : ∀ k, 32 + len ≤ k → k < 508 → byteAt t (0x400 + k) = 0#8
  magicEnd : memRead .out 508 4 t = 0x0AB16F30

/-- The host stages the chunk of the program data `p` that the next EMIT carries: bytes
`[REGION_POS, REGION_POS + len)` into DATA_BUF (R102, R166). -/
def stageChunk (p : List Byte) (s : State) : State :=
  match s.region with
  | .boot => s
  | .prog => storeBytes .data 0 ((p.drop s.regionPos.toNat).take (chunkLen s)) s

/-- `n` rounds of staging, EMIT and reading OUT_BUF: the blocks in emission order and the last state,
or nothing if an EMIT gave no next state (R163 step 6). -/
def emitBlocks (p : List Byte) : Nat → State → Option (List (List Byte) × State)
  | 0, s => some ([], s)
  | n + 1, s =>
    match exec .emit (stageChunk p s) with
    | .next t => (emitBlocks p n t).map (fun r => (bufBytes .out 0 512 t :: r.1, r.2))
    | .fault _ => none
    | .refused _ => none

/-- The little-endian 32-bit field at a byte offset of a record (R74). -/
def recordField (off : Nat) (record : List Byte) : Nat := leValue ((record.drop off).take 4)

/-- A record's data region truncated to its payload_length (R106). -/
def recordPayload (record : List Byte) : List Byte :=
  (record.drop 32).take (recordField 16 record)

end Sys2Proof.Machine
end

