-- ==== Sys2Proof/Certificates/Slice0/Obligations.lean ====
section
/-! DEFINITION. The statements for the provers. Each says which rule of the spec it formalises. -/

open Sys2Proof Sys2Proof.Machine

/-! ### Command words -/

/-- The five words of R71's opcode map, written out, decode to their commands and are their encodings. -/
def Obligations.CommandWordsDecode : Prop :=
  decode 0x00000001#32 = .command .inject ∧ encode .inject = 0x00000001#32 ∧
  decode 0x00000002#32 = .command .verify ∧ encode .verify = 0x00000002#32 ∧
  decode 0x00000003#32 = .command .start ∧ encode .start = 0x00000003#32 ∧
  decode 0x00000004#32 = .command .emit ∧ encode .emit = 0x00000004#32 ∧
  decode 0x00000005#32 = .command .clear ∧ encode .clear = 0x00000005#32

/-- Decoding is exact on all 32 bits: a word decodes to a command if and only if it is that command's
encoding, and it decodes at all if and only if it is legal (R70, R72). -/
def Obligations.DecodeExactlyEncodedWords : Prop :=
  ∀ w : Word, (∀ i : Instr, decode w = .command i ↔ w = encode i) ∧
    (commandLegal w = true ↔ ∃ i : Instr, decode w = .command i)

/-- R72: a word is legal if and only if RSV is 0 and OP is one of 1 to 5, that is, if and only if it is
one of the five words; executing any other word raises IllegalCommand with that word in ERR_CMD, unless
an error is already pending, and then it is skipped. -/
def Obligations.IllegalWordRaisesIllegalCommand : Prop :=
  ∀ w : Word,
    (commandLegal w = true ↔ w.extractLsb' 8 24 = 0#24 ∧
      1 ≤ (w.extractLsb' 0 8).toNat ∧ (w.extractLsb' 0 8).toNat ≤ 5) ∧
    (commandLegal w = true ↔ ∃ n : Nat, 1 ≤ n ∧ n ≤ 5 ∧ w = BitVec.ofNat 32 n) ∧
    ∀ s : State, commandLegal w = false → s.pendingCmd = w →
      (s.err = false → engineStep s = .next (failedWith 4#8 w s)) ∧
      (s.err = true → engineStep s = .next { s with busy := false })

/-! ### Steps -/

/-- When it is the engine's turn and BUSY = 1, the step runs the decoded word in PENDING_CMD: it is exec
of the command at that state, the turn taken off the agenda (R60, R121). The agenda is the model's own
(assumption 1). -/
def Obligations.StepRunsDecodedCommand : Prop :=
  ∀ (s : State) (i : Instr), s.busy = true → decode s.pendingCmd = .command i →
    (∀ rest, s.agenda = .engineTurn :: rest → step s = exec i { s with agenda := rest }) ∧
    (s.agenda = [] → step s = exec i s)

/-- A command word placed where the engine takes its next command is what the very next step runs. How a
word is placed is the model's own (assumption 2). -/
def Obligations.FetchedWordRunsNext : Prop :=
  ∀ (i : Instr) (s : State),
    step (s.withFetchWord 32 (encode i).toNat) = exec i { s with pendingCmd := encode i, busy := true }

/-- R121: the engine's dispatch. CLEAR runs whatever ERR holds; every other word is skipped while ERR is
1; the five words run their commands and any other word raises IllegalCommand; BUSY is 0 afterwards in
every case. The engine's turn does nothing while BUSY = 0. -/
def Obligations.EngineStepDispatches : Prop :=
  ∀ s : State,
    (s.pendingCmd = 5#32 → engineStep s = exec .clear s) ∧
    (s.pendingCmd ≠ 5#32 → s.err = true → engineStep s = .next { s with busy := false }) ∧
    (s.pendingCmd = 1#32 → engineStep s = exec .inject s) ∧
    (s.pendingCmd = 2#32 → engineStep s = exec .verify s) ∧
    (s.pendingCmd = 3#32 → engineStep s = exec .start s) ∧
    (s.pendingCmd = 4#32 → engineStep s = exec .emit s) ∧
    (s.err = false → s.pendingCmd ∉ [1#32, 2#32, 3#32, 4#32, 5#32] →
      engineStep s = .next (failedWith 4#8 s.pendingCmd s)) ∧
    (∃ t, engineStep s = .next t ∧ t.busy = false) ∧
    (s.busy = true → engineTurn s = engineStep s) ∧
    (s.busy = false → engineTurn s = .next s)

/-- Nothing stops the block: every step of every state gives a next state, since a bus error is a
response and a command error a recorded code (R58, R130, R144). -/
def Obligations.EveryStepGivesNextState : Prop :=
  ∀ s : State, ∃ t, step s = .next t

/-- A step whose event is a host transaction completes it: the block answers with exactly one response,
and the step is that transaction at that state (R50). The agenda and the response log are the model's own
(assumptions 1 and 6). -/
def Obligations.HostStepCompletesTransaction : Prop :=
  ∀ (s : State) (x : BusTxn) (rest : List Event), s.agenda = .host x :: rest →
    step s = .next (busTransaction x { s with agenda := rest }) ∧
    (busTransaction x { s with agenda := rest }).agenda = rest ∧
    ∃ r : BusResponse, (busTransaction x { s with agenda := rest }).responses = r :: s.responses

/-! ### Reset -/

/-- R160: the reset input, whatever the state and also while BUSY = 1, gives every register its reset
value as a bus read returns it, abandons the pending command, and leaves the engine no enabled step. The
state after reset holds the same values. -/
def Obligations.ResetGivesResetValues : Prop :=
  ∀ u : State, (u = State.reset ∨ ∃ s : State, u = hardReset s) →
    readRegister .ctrl u = 0x00000001#32 ∧ readRegister .cmd u = 0#32 ∧
    readRegister .status u = 0#32 ∧ readRegister .errCode u = 0#32 ∧
    readRegister .errCmd u = 0#32 ∧ readRegister .bootLen u = 0#32 ∧
    readRegister .progLen u = 0#32 ∧ readRegister .bootBase u = 0x10000000#32 ∧
    readRegister .progBase u = 0x10000100#32 ∧ readRegister .familyId u = 0xE48BFF56#32 ∧
    readRegister .crcResult u = 0#32 ∧ readRegister .totalBlocks u = 0#32 ∧
    readRegister .blockIndex u = 0#32 ∧ readRegister .regionPos u = 0#32 ∧
    u.pendingCmd = 0#32 ∧ engineTurn u = .next u

/-- The platform's reset input takes effect whatever the state, BUSY = 1 or not, and every buffer byte then
holds a draw of its own, fresh at each reset (R160, R161). The input's place in the agenda is assumption 1
and the form of a draw assumption 3, both the model's own. -/
def Obligations.ResetInputAlwaysAccepted : Prop :=
  ∀ (s : State) (rest : List Event), s.agenda = .reset :: rest →
    step s = .next (hardReset { s with agenda := rest }) ∧
    (hardReset { s with agenda := rest }).resetDraw = s.resetDraw + 1 ∧
    ∀ a : Nat, byteAt (hardReset { s with agenda := rest }) a = Config.bufferDraw (s.resetDraw + 1) a

/-! ### The checksum -/

/-- R96: the reference values of the CRC. -/
def Obligations.CrcReferenceValues : Prop :=
  crc32 [] = 0xFFFFFFFF#32 ∧
  crc32 [0x31#8, 0x32#8, 0x33#8, 0x34#8, 0x35#8, 0x36#8, 0x37#8, 0x38#8, 0x39#8] = 0x0376E6E7#32 ∧
  crc32 [0x00#8] = 0x4E08BFB4#32 ∧
  crc32 [0xFF#8] = 0xFFFFFF00#32 ∧
  crc32 (List.replicate 252 0x00#8) = 0x7065399A#32 ∧
  crc32 (List.replicate 252 0xFF#8) = 0x0B8FD31A#32 ∧
  crc32 ((List.range 252).map (fun k => BitVec.ofNat 8 k)) = 0xB454E2A8#32 ∧
  crc32 [0xDE#8, 0xAD#8, 0xBE#8, 0xEF#8] = 0x81DA1A18#32

/-- R98: the byte-at-a-time table form equals the bitwise form, on every byte step and every sequence,
with the reference entries of the table. -/
def Obligations.CrcTableFormEqualsBitwise : Prop :=
  (∀ (crc : Word) (b : Byte),
    crcByte crc b = (crc <<< 8) ^^^ crcTable ((crc >>> 24).setWidth 8 ^^^ b)) ∧
  (∀ bs : List Byte, crc32 bs = crc32Table bs) ∧
  crcTable 0#8 = 0x00000000#32 ∧ crcTable 1#8 = 0x04C11DB7#32 ∧ crcTable 2#8 = 0x09823B6E#32 ∧
  crcTable 128#8 = 0x690CE0EE#32 ∧ crcTable 255#8 = 0xB1F740B4#32

/-- R92: INJECT. On success the CRC of bytes 0..251 goes little-endian into bytes 252..255 and into
CRC_RESULT, BOOT_OK is 1, BUSY is 0 and nothing else changes, no other byte among it; an active pass is a
SequenceError, and then a length other than 256 a MalformedBootloader, which write nothing of the above.
For 252 zero bytes the CRC is 0x7065399A. -/
def Obligations.InjectWritesChecksum : Prop :=
  encode .inject = 1#32 ∧ ∀ s : State, s.err = false →
    (s.active = true → exec .inject s = .next (failedWith 5#8 1#32 s)) ∧
    (s.active = false → s.bootLen ≠ 256#32 → exec .inject s = .next (failedWith 1#8 1#32 s)) ∧
    (s.active = false → s.bootLen = 256#32 → ∃ t, exec .inject s = .next t ∧
      t.crcResult = crc32 (bufBytes .boot 0 252 s) ∧
      leValue (bufBytes .boot 252 4 t) = (crc32 (bufBytes .boot 0 252 s)).toNat ∧
      t.bootOk = true ∧ t.busy = false ∧
      (∀ a, ¬(0x1FC ≤ a ∧ a < 0x200) → byteAt t a = byteAt s a) ∧
      { t with crcResult := s.crcResult, bootOk := s.bootOk, busy := s.busy, mem := s.mem } = s ∧
      ((∀ k, k < 252 → byteAt s (0x100 + k) = 0#8) → t.crcResult = 0x7065399A#32 ∧
        bufBytes .boot 252 4 t = [0x9A#8, 0x39#8, 0x65#8, 0x70#8]))

/-- R93: VERIFY. It recomputes the CRC into CRC_RESULT and sets BOOT_OK to whether the stored field
matches, active pass or not, a mismatch being no error; a length other than 256 is a
MalformedBootloader. Nothing else changes, and no byte does. -/
def Obligations.VerifyComparesChecksum : Prop :=
  encode .verify = 2#32 ∧ ∀ s : State, s.err = false →
    (s.bootLen ≠ 256#32 → exec .verify s = .next (failedWith 1#8 2#32 s)) ∧
    (s.bootLen = 256#32 → exec .verify s = .next { s with
      crcResult := crc32 (bufBytes .boot 0 252 s)
      bootOk := decide (leValue (bufBytes .boot 252 4 s) = (crc32 (bufBytes .boot 0 252 s)).toNat)
      busy := false }) ∧
    (s.bootLen = 256#32 → (∀ k, k < 252 → byteAt s (0x100 + k) = 0#8) →
      ∃ t, exec .verify s = .next t ∧ t.crcResult = 0x7065399A#32 ∧
        (bufBytes .boot 252 4 s = [0x00#8, 0x00#8, 0x00#8, 0x00#8] → t.bootOk = false) ∧
        (bufBytes .boot 252 4 s = [0x9A#8, 0x39#8, 0x65#8, 0x70#8] → t.bootOk = true))

/-- VERIFY right after a successful INJECT always sets BOOT_OK (R93, R94). -/
def Obligations.VerifyAfterInjectPasses : Prop :=
  ∀ s : State, s.err = false → s.active = false → s.bootLen = 256#32 →
    ∃ t u, exec .inject s = .next t ∧ exec .verify t = .next u ∧
      u.bootOk = true ∧ u.crcResult = t.crcResult ∧ u.err = false

/-- R95: a second successful INJECT, with the bytes of BOOT_BUF not written in between, leaves BOOT_BUF,
CRC_RESULT and BOOT_OK as the first left them; right after the first it leaves the whole state so. -/
def Obligations.InjectIsIdempotent : Prop :=
  ∀ s : State, s.err = false → s.active = false → s.bootLen = 256#32 →
    ∃ t, exec .inject s = .next t ∧
      (∃ v, exec .inject t = .next v ∧ (∀ a, byteAt v a = byteAt t a) ∧ { v with mem := t.mem } = t) ∧
      ∀ u : State, u.err = false → u.active = false → u.bootLen = 256#32 →
        bufBytes .boot 0 256 u = bufBytes .boot 0 256 t →
        ∃ v, exec .inject u = .next v ∧ bufBytes .boot 0 256 v = bufBytes .boot 0 256 t ∧
          v.crcResult = t.crcResult ∧ v.bootOk = t.bootOk

/-- R94: after a successful INJECT the stored field is the CRC of the bytes it covers and CRC_RESULT is
that value; any step keeps this but an accepted host write to BOOT_BUF or BOOT_LEN, and a reset, which
R161 lets change every byte. The place of host steps and resets on the agenda is assumption 1. -/
def Obligations.ChecksumKeptUntilBootWrite : Prop :=
  (∀ s : State, s.err = false → s.active = false → s.bootLen = 256#32 →
    ∃ t, exec .inject s = .next t ∧ checksumValid t ∧
      t.crcResult = crc32 (bufBytes .boot 0 252 t)) ∧
  (∀ s t : State, step s = .next t →
    (∀ x rest, s.agenda = .host x :: rest → ¬acceptedBootWrite x s) →
    (∀ rest, s.agenda ≠ .reset :: rest) →
    checksumValid s → s.crcResult = crc32 (bufBytes .boot 0 252 s) →
    checksumValid t ∧ t.crcResult = crc32 (bufBytes .boot 0 252 t))

/-! ### The encoder -/

/-- A START that no check refuses: the shared total is the sum of the regions' block counts, the counters
restart, REGION is BOOT if the bootloader region is enabled, OUT_VALID falls, and the pass is ACTIVE, or
DONE at once if there is no block. Nothing else changes, and no byte does (R100, R104). -/
def Obligations.StartBeginsPass : Prop :=
  ∀ s : State, s.err = false → s.active = false →
    (s.bootEn = true → s.bootLen = 256#32 ∧ s.bootOk = true ∧ s.bootBase.toNat + 255 ≤ 0xFFFFFFFF) →
    (0 < s.progLen.toNat → s.progBase.toNat + s.progLen.toNat - 1 ≤ 0xFFFFFFFF) →
    ∃ np : Nat,
      (s.progLen.toNat = 0 → np = s.emptyBlk.toNat) ∧
      (0 < s.progLen.toNat → s.progLen.toNat ≤ np * 256 ∧ (np - 1) * 256 < s.progLen.toNat) ∧
      exec .start s = .next { s with
        totalBlocks := BitVec.ofNat 32 (s.bootEn.toNat + np)
        blockIndex := 0#32
        regionPos := 0#32
        region := if s.bootEn then .boot else .prog
        outValid := false
        active := decide (s.bootEn.toNat + np ≠ 0)
        done := decide (s.bootEn.toNat + np = 0)
        busy := false } ∧
      s.bootEn.toNat + np ≤ 2 ^ 24 + 1

/-- START's errors in the order of R142: SequenceError for an active pass, MalformedBootloader,
SequenceError for BOOT_OK = 0, AddressOverflow of the bootloader region, AddressOverflow of the program
region. -/
def Obligations.StartErrorsInOrder : Prop :=
  ∀ s : State, s.err = false →
    (s.active = true → exec .start s = .next (failedWith 5#8 3#32 s)) ∧
    (s.active = false → s.bootEn = true → s.bootLen ≠ 256#32 →
      exec .start s = .next (failedWith 1#8 3#32 s)) ∧
    (s.active = false → s.bootEn = true → s.bootLen = 256#32 → s.bootOk = false →
      exec .start s = .next (failedWith 5#8 3#32 s)) ∧
    (s.active = false → s.bootEn = true → s.bootLen = 256#32 → s.bootOk = true →
      s.bootBase.toNat + 255 > 0xFFFFFFFF → exec .start s = .next (failedWith 6#8 3#32 s)) ∧
    (s.active = false →
      (s.bootEn = true → s.bootLen = 256#32 ∧ s.bootOk = true ∧ s.bootBase.toNat + 255 ≤ 0xFFFFFFFF) →
      0 < s.progLen.toNat → s.progBase.toNat + s.progLen.toNat - 1 > 0xFFFFFFFF →
      exec .start s = .next (failedWith 6#8 3#32 s))

/-- R110: a START that the earlier checks let through raises AddressOverflow exactly when the bootloader
region is enabled and BOOT_BASE is above 0xFFFFFF00, or PROG_LEN is positive and the program region's last
byte is above 0xFFFFFFFF; the zero-length block alone never overflows. -/
def Obligations.StartAddressOverflowIff : Prop :=
  ∀ s : State, s.err = false → s.active = false →
    (s.bootEn = true → s.bootLen = 256#32 ∧ s.bootOk = true) →
    (exec .start s = .next (failedWith 6#8 3#32 s) ↔
      (s.bootEn = true ∧ s.bootBase.toNat > 0xFFFFFF00) ∨
      (s.progLen.toNat > 0 ∧ s.progBase.toNat + s.progLen.toNat - 1 > 0xFFFFFFFF)) ∧
    (s.bootEn = false → s.progLen = 0#32 → ∃ t, exec .start s = .next t ∧ t.err = false)

/-- R109: the total never exceeds 2^24 + 1, so START never raises PayloadTooLarge. -/
def Obligations.PayloadTooLargeUnreachable : Prop :=
  ∀ s : State, progRegionBlocks s ≤ 2 ^ 24 ∧ passBlocks s ≤ 2 ^ 24 + 1 ∧
    ∀ t, exec .start s = .next t → t.errCode = 2#8 → s.errCode = 2#8

/-- R105, R103, R74, R75: EMIT. Without an active pass it is a SequenceError. Otherwise OUT_BUF becomes the whole
record of the next chunk (the boot image at BOOT_BASE, or the first `len` bytes of DATA_BUF at PROG_BASE),
the sequencer moves on by one block, the last block ends the pass, and nothing outside OUT_BUF, BLOCK_INDEX,
REGION_POS and the flags REGION, OUT_VALID, ACTIVE, DONE and BUSY changes. Where REGION_POS exceeds PROG_LEN,
which no reachable state has, the length 0 is the model's reading (assumption 11). -/
def Obligations.EmitSerializesNextBlock : Prop :=
  encode .emit = 4#32 ∧ ∀ s : State, s.err = false →
    (s.active = false → exec .emit s = .next (failedWith 5#8 4#32 s)) ∧
    (s.active = true → ∃ (t : State) (addr len : Nat) (data : List Byte),
      exec .emit s = .next t ∧
      (s.region = .boot → addr = (s.bootBase.toNat + s.regionPos.toNat) % 2 ^ 32 ∧ len = 256 ∧
        data = bufBytes .boot 0 256 s ∧ t.regionPos = 0#32) ∧
      (s.region = .prog → addr = (s.progBase.toNat + s.regionPos.toNat) % 2 ^ 32 ∧
        len = min 256 (s.progLen.toNat - s.regionPos.toNat) ∧
        data = bufBytes .data 0 len s ∧ t.regionPos = s.regionPos + BitVec.ofNat 32 len) ∧
      OutBufHolds addr len s.blockIndex.toNat s.totalBlocks.toNat s.familyId.toNat data t ∧
      t.blockIndex = s.blockIndex + 1#32 ∧ t.region = .prog ∧ t.outValid = true ∧ t.busy = false ∧
      (s.blockIndex.toNat + 1 = s.totalBlocks.toNat → t.active = false ∧ t.done = true) ∧
      (s.blockIndex.toNat + 1 ≠ s.totalBlocks.toNat → t.active = true ∧ t.done = s.done) ∧
      (∀ a, ¬(0x400 ≤ a ∧ a < 0x600) → byteAt t a = byteAt s a) ∧
      { t with blockIndex := s.blockIndex, regionPos := s.regionPos, region := s.region,
               outValid := s.outValid, busy := s.busy, active := s.active, done := s.done,
               mem := s.mem } = s)

/-- R76: in every state of the invariant, the record an EMIT writes has a payload of at most 256 bytes, a
block index below its total, and as target address the region's base plus the chunk's offset, without
wrapping; it is 512 bytes long. BLOCK_INDEX rises by one, as integers, and stays at most the total. -/
def Obligations.EmittedFieldsWithinBounds : Prop :=
  ∀ s : State, BlockInv s → s.err = false → s.active = true → ∃ t, exec .emit s = .next t ∧
    memRead .out 16 4 t ≤ 256 ∧ memRead .out 20 4 t < memRead .out 24 4 t ∧
    (s.region = .boot → memRead .out 12 4 t = s.bootBase.toNat + s.regionPos.toNat) ∧
    (s.region = .prog → memRead .out 12 4 t = s.progBase.toNat + s.regionPos.toNat) ∧
    memRead .out 12 4 t + memRead .out 16 4 t ≤ 2 ^ 32 ∧ (nextBlock s).length = 512 ∧
    bufBytes .out 0 512 t = nextBlock s ∧
    t.blockIndex.toNat = s.blockIndex.toNat + 1 ∧ t.blockIndex.toNat ≤ s.totalBlocks.toNat ∧
    s.totalBlocks.toNat ≤ 2 ^ 24 + 1

/-- The block of the bootloader region carries a valid checksum: in every state of the invariant, record
bytes 284..287 of the block EMIT writes are the CRC of its record bytes 32..283 (R94, R104; the place of
the field by spec/90_conflicts.md C3). -/
def Obligations.BootBlockCarriesValidChecksum : Prop :=
  ∀ s : State, BlockInv s → s.err = false → s.active = true → s.region = .boot →
    ∃ t, exec .emit s = .next t ∧
      memRead .out 284 4 t = (crc32 (bufBytes .out 32 252 t)).toNat ∧ memRead .out 16 4 t = 256

/-- DATA_BUF bytes at and above `len` are never copied: two states that differ only in bytes that are
neither BOOT_BUF's nor among the first `len` of DATA_BUF give the same record (R103, R166). The length where
REGION_POS exceeds PROG_LEN, which no reachable state has, is the model's reading (assumption 11). -/
def Obligations.StaleDataBytesNeverEmitted : Prop :=
  ∀ (s u : State), s.err = false → s.active = true → s.region = .prog →
    { u with mem := s.mem, resetDraw := s.resetDraw } = s →
    (∀ k, k < min 256 (s.progLen.toNat - s.regionPos.toNat) →
      byteAt u (0x200 + k) = byteAt s (0x200 + k)) →
    ∃ t v, exec .emit s = .next t ∧ exec .emit u = .next v ∧
      bufBytes .out 0 512 v = bufBytes .out 0 512 t

/-- R108: the boundary cases. A program of 256·m bytes, m ≥ 1, has m blocks and its last block carries
256 bytes; a program of one byte has one block, of length 1, whose bytes 33 to 507 are zero. -/
def Obligations.BlockBoundaryCases : Prop :=
  (∀ (s : State) (m : Nat), 1 ≤ m → s.progLen.toNat = 256 * m → progRegionBlocks s = m ∧
    (BlockInv s → s.err = false → s.active = true → s.region = .prog →
      s.blockIndex.toNat + 1 = s.totalBlocks.toNat →
      ∃ t, exec .emit s = .next t ∧ memRead .out 16 4 t = 256 ∧ t.done = true)) ∧
  (∀ s : State, s.progLen.toNat = 1 → progRegionBlocks s = 1 ∧
    (BlockInv s → s.err = false → s.active = true → s.region = .prog →
      ∃ t, exec .emit s = .next t ∧ memRead .out 16 4 t = 1 ∧ t.done = true ∧
        ∀ k, 33 ≤ k → k ≤ 507 → byteAt t (0x400 + k) = 0#8))

/-- R107: in a pass of TOTAL_BLOCKS rounds of staging and EMIT after a START, every record carries the same
total, the records' block indexes are 0, 1, … in order, and the pass is DONE exactly then. With EMPTY_BLK
= 0 the total is BOOT_EN + ceil(PROG_LEN / 256), which is also ceil of the whole payload's length over 256;
with EMPTY_BLK = 1 and PROG_LEN = 0 it is one more. Staging is `stageChunk`, a store into DATA_BUF. -/
def Obligations.PassBlockCountConsistent : Prop :=
  ∀ (s t : State) (p : List Byte), s.err = false → exec .start s = .next t → t.err = false →
    p.length = s.progLen.toNat →
    (s.emptyBlk = false → t.totalBlocks.toNat = s.bootEn.toNat + (s.progLen.toNat + 255) / 256 ∧
      t.totalBlocks.toNat = (256 * s.bootEn.toNat + s.progLen.toNat + 255) / 256) ∧
    (s.emptyBlk = true → s.progLen = 0#32 → t.totalBlocks.toNat = s.bootEn.toNat + 1) ∧
    ∃ (bs : List (List Byte)) (u : State), emitBlocks p t.totalBlocks.toNat t = some (bs, u) ∧
      bs.map (recordField 20) = List.range t.totalBlocks.toNat ∧
      (∀ b ∈ bs, recordField 24 b = t.totalBlocks.toNat) ∧
      u.done = true ∧ u.active = false ∧ u.err = false ∧
      ∀ n, n < t.totalBlocks.toNat → ∃ (cs : List (List Byte)) (v : State),
        emitBlocks p n t = some (cs, v) ∧ v.active = true ∧ v.done = false

/-- R106: the round trip. If a pass runs to DONE with every program chunk staged before its EMIT, the data
regions of the emitted records, cut to their payload lengths and joined in order, are the boot image (when
enabled) followed by the program data, for any payload. Staging is `stageChunk`, a store into DATA_BUF. -/
def Obligations.PassRoundTrip : Prop :=
  ∀ (s t : State) (p : List Byte), s.err = false → exec .start s = .next t → t.err = false →
    p.length = s.progLen.toNat →
    ∃ (bs : List (List Byte)) (u : State), emitBlocks p t.totalBlocks.toNat t = some (bs, u) ∧
      u.done = true ∧
      (bs.map recordPayload).flatten = (if s.bootEn then bufBytes .boot 0 256 s else []) ++ p

/-- R111: the same pass with the same inputs gives byte-identical blocks. If two states agree on CTRL,
PROG_LEN, the bases, FAMILY_ID and the bytes of BOOT_BUF, and START does not raise in either, staging the
same program data gives the same records from both, whatever else differs between them. -/
def Obligations.PassRerunIdentical : Prop :=
  ∀ (s s' t t' : State) (p : List Byte), s.err = false → s'.err = false →
    exec .start s = .next t → exec .start s' = .next t' → t.err = false → t'.err = false →
    s.bootEn = s'.bootEn → s.emptyBlk = s'.emptyBlk → s.progLen = s'.progLen →
    s.bootBase = s'.bootBase → s.progBase = s'.progBase → s.familyId = s'.familyId →
    bufBytes .boot 0 256 s = bufBytes .boot 0 256 s' → p.length = s.progLen.toNat →
    t.totalBlocks = t'.totalBlocks ∧
    ∃ (bs : List (List Byte)) (u u' : State),
      emitBlocks p t.totalBlocks.toNat t = some (bs, u) ∧
      emitBlocks p t'.totalBlocks.toNat t' = some (bs, u')

/-! ### Errors and CLEAR -/

/-- R122: CLEAR, whatever ERR holds: the error registers, the pass flags and the counters are zeroed and
BUSY falls; everything else is kept, BOOT_OK, the configuration, CRC_RESULT and every byte among it. -/
def Obligations.ClearResetsErrorAndPass : Prop :=
  encode .clear = 5#32 ∧ ∀ s : State, exec .clear s = .next { s with
    err := false
    errCode := 0#8
    errCmd := 0#32
    active := false
    done := false
    outValid := false
    region := .boot
    totalBlocks := 0#32
    blockIndex := 0#32
    regionPos := 0#32
    busy := false }

/-- While an error is pending every command but CLEAR is skipped: only BUSY falls (R121, R144). -/
def Obligations.CommandsSkippedWhileError : Prop :=
  ∀ (i : Instr) (s : State), i ≠ .clear → s.err = true → exec i s = .next { s with busy := false }

/-- R141: a command that raises has changed nothing but ERR, ERR_CODE, ERR_CMD and BUSY. -/
def Obligations.CommandErrorsArePrecise : Prop :=
  ∀ (i : Instr) (s : State), s.err = false →
    ∃ t, exec i s = .next t ∧
      (t.err = true → t = { s with busy := false, err := true, errCode := t.errCode, errCmd := encode i })

/-- The first error stays: a step from a state with ERR = 1 leaves ERR_CODE and ERR_CMD as they are, or it
clears ERR, and then it was CLEAR's engine step or a reset (R140, R145). The reset's place on the agenda is
assumption 1. -/
def Obligations.FirstErrorStays : Prop :=
  ∀ s t : State, s.err = true → step s = .next t →
    (t.err = true → t.errCode = s.errCode ∧ t.errCmd = s.errCmd) ∧
    (t.err = false → (s.busy = true ∧ s.pendingCmd = 5#32 ∧ t.busy = false) ∨
      ∃ rest, s.agenda = .reset :: rest)

/-- The codes an engine step can record are those of R131 that a command raises at run time:
MalformedBootloader, IllegalCommand, SequenceError and AddressOverflow. InvalidConfiguration is never
raised (R9), PayloadTooLarge is unreachable (R109), and 7 to 255 are never produced. -/
def Obligations.RecordedCodesAreRuntimeErrors : Prop :=
  ∀ s t : State, s.err = false → engineStep s = .next t → t.err = true →
    (t.errCode = 1#8 ∨ t.errCode = 4#8 ∨ t.errCode = 5#8 ∨ t.errCode = 6#8) ∧ t.errCmd = s.pendingCmd

/-- R44: the engine's writes. A command that does not raise writes only what its row of the table names,
and no command writes CTRL, BOOT_LEN, PROG_LEN, BOOT_BASE, PROG_BASE, FAMILY_ID or DATA_BUF. -/
def Obligations.EngineWritesOnlyTableRows : Prop :=
  (∀ (i : Instr) (s t : State), exec i s = .next t → t.busy = false ∧
    t.bootEn = s.bootEn ∧ t.emptyBlk = s.emptyBlk ∧ t.bootLen = s.bootLen ∧ t.progLen = s.progLen ∧
    t.bootBase = s.bootBase ∧ t.progBase = s.progBase ∧ t.familyId = s.familyId ∧
    (∀ k, k < 256 → byteAt t (0x200 + k) = byteAt s (0x200 + k)) ∧
    (s.err = false → t.err = true → blockState t = blockState (failedWith t.errCode t.errCmd s))) ∧
  (∀ s t : State, exec .inject s = .next t → t.err = false →
    (∀ a, ¬(0x1FC ≤ a ∧ a < 0x200) → byteAt t a = byteAt s a) ∧ t.bootOk = true ∧
    { t with mem := s.mem, crcResult := s.crcResult, bootOk := s.bootOk, busy := s.busy } = s) ∧
  (∀ s t : State, exec .verify s = .next t → t.err = false →
    { t with crcResult := s.crcResult, bootOk := s.bootOk, busy := s.busy } = s) ∧
  (∀ s t : State, exec .start s = .next t → t.err = false → t.outValid = false ∧
    { t with totalBlocks := s.totalBlocks, blockIndex := s.blockIndex, regionPos := s.regionPos,
             region := s.region, active := s.active, done := s.done, outValid := s.outValid,
             busy := s.busy } = s) ∧
  (∀ s t : State, exec .emit s = .next t → t.err = false →
    (∀ a, ¬(0x400 ≤ a ∧ a < 0x600) → byteAt t a = byteAt s a) ∧ t.outValid = true ∧
    (s.blockIndex.toNat + 1 = s.totalBlocks.toNat → t.active = false ∧ t.done = true) ∧
    (s.blockIndex.toNat + 1 ≠ s.totalBlocks.toNat → t.active = s.active ∧ t.done = s.done) ∧
    { t with mem := s.mem, blockIndex := s.blockIndex, regionPos := s.regionPos, region := s.region,
             outValid := s.outValid, active := s.active, done := s.done, busy := s.busy } = s) ∧
  (∀ s t : State, exec .clear s = .next t →
    { t with err := s.err, errCode := s.errCode, errCmd := s.errCmd, active := s.active,
             done := s.done, outValid := s.outValid, region := s.region,
             totalBlocks := s.totalBlocks, blockIndex := s.blockIndex, regionPos := s.regionPos,
             busy := s.busy } = s)

/-- The sequencer moves only by START, EMIT, CLEAR and reset (R41, R123). No host transaction moves it, nor
the engine step of an illegal word, nor a command that is skipped or raises; a step that moves it is the
engine step of one of the three commands, or a reset (whose place on the agenda is assumption 1). INJECT and
VERIFY leave it; a START that does not raise goes from not ACTIVE to exactly one of ACTIVE and DONE, the
counters at 0; an EMIT that does not raise goes from ACTIVE to ACTIVE or DONE, one block further; CLEAR goes
to IDLE from anywhere. -/
def Obligations.SequencerMovesOnlyByCommands : Prop :=
  (∀ (x : BusTxn) (s : State), SameSequencer s (busTransaction x s)) ∧
  (∀ s t : State, commandLegal s.pendingCmd = false → engineStep s = .next t → SameSequencer s t) ∧
  (∀ (i : Instr) (s t : State), exec i s = .next t →
    (s.err = true → i ≠ .clear → SameSequencer s t) ∧
    (s.err = false → t.err = true → SameSequencer s t)) ∧
  (∀ s t : State, step s = .next t → SameSequencer s t ∨
    (s.busy = true ∧ t.busy = false ∧
      (s.pendingCmd = 3#32 ∨ s.pendingCmd = 4#32 ∨ s.pendingCmd = 5#32)) ∨
    ∃ rest, s.agenda = .reset :: rest) ∧
  ∀ s : State,
    (s.err = false →
      (∃ t, exec .inject s = .next t ∧ SameSequencer s t) ∧
      (∃ t, exec .verify s = .next t ∧ SameSequencer s t) ∧
      (∃ t, exec .start s = .next t ∧ (t.err = false →
        s.active = false ∧ t.done = !t.active ∧ t.region = (if s.bootEn then .boot else .prog) ∧
        t.blockIndex = 0#32 ∧ t.regionPos = 0#32)) ∧
      (∃ t, exec .emit s = .next t ∧ (t.err = false →
        s.active = true ∧ (t.active = true ∨ t.done = true) ∧ t.region = .prog ∧
        t.blockIndex = s.blockIndex + 1#32 ∧ t.totalBlocks = s.totalBlocks))) ∧
    (∃ t, exec .clear s = .next t ∧ t.active = false ∧ t.done = false ∧ t.region = .boot ∧
      t.blockIndex = 0#32 ∧ t.regionPos = 0#32 ∧ t.totalBlocks = 0#32)

/-! ### The bus -/

/-- R58: a transaction has response ERROR, and changes nothing, if and only if it is misaligned, or its
offset is unmapped, or it is a write while BUSY = 1, or a write to an RO register or OUT_BUF, or a write to
an RW-L register or BOOT_BUF while ACTIVE = 1; the first of these that holds, in this order, decides. Every
other transaction has response OKAY. -/
def Obligations.BusErrorExactlyWhenRefused : Prop :=
  ∀ (off : Offset) (s : State),
    (∀ wr : Bool, off.toNat % 4 ≠ 0 → busCheck wr off s = .error .misaligned) ∧
    (∀ wr : Bool, off.toNat % 4 = 0 → mappedOffset off.toNat = false →
      busCheck wr off s = .error .unmapped) ∧
    (off.toNat % 4 = 0 → mappedOffset off.toNat = true →
      (s.busy = true → busCheck true off s = .error .writeWhileBusy) ∧
      (s.busy = false → readOnlyOffset off.toNat = true →
        busCheck true off s = .error .writeReadOnly) ∧
      (s.busy = false → lockedOffset off.toNat = true → s.active = true →
        busCheck true off s = .error .writeLocked)) ∧
    (off.toNat % 4 ≠ 0 ∨ mappedOffset off.toNat = false →
      busTransaction (.read off) s = respond .error s) ∧
    (off.toNat % 4 = 0 → mappedOffset off.toNat = true →
      ∃ v, (busTransaction (.read off) s).responses = .okayRead v :: s.responses) ∧
    ∀ w : Word,
      (off.toNat % 4 ≠ 0 ∨ mappedOffset off.toNat = false ∨ s.busy = true ∨
        readOnlyOffset off.toNat = true ∨ (lockedOffset off.toNat = true ∧ s.active = true) →
        busTransaction (.write off w) s = respond .error s) ∧
      (off.toNat % 4 = 0 → mappedOffset off.toNat = true → s.busy = false →
        readOnlyOffset off.toNat = false → (lockedOffset off.toNat = false ∨ s.active = false) →
        (busTransaction (.write off w) s).responses = .okayWrite :: s.responses)

/-- An access narrower than 32 bits is a bus error and changes nothing (R56). That it is a transaction of its
own is the model's form (assumption 12). -/
def Obligations.NarrowAccessIsBusError : Prop :=
  ∀ (off : Offset) (s : State), busTransaction (.narrow off) s = respond .error s

/-- R59: while BUSY = 1, a read of STATUS returns the exact STATUS and a read of any other mapped offset
returns a draw, a fresh one each time; both have response OKAY, and neither changes the block. The form of
a draw is the model's own (assumption 5). -/
def Obligations.ReadsWhileBusyReturnDraws : Prop :=
  ∀ (off : Offset) (s : State), s.busy = true →
    busTransaction (.read 0x008#12) s = respond (.okayRead (statusWord s)) s ∧
    (off.toNat % 4 = 0 → mappedOffset off.toNat = true → off ≠ 0x008#12 →
      busTransaction (.read off) s =
        respond (.okayRead (Config.busyReadDraw s.busyDraw)) { s with busyDraw := s.busyDraw + 1 })

/-- STATUS reads as R25 lays it out: each flag in its bit, bits 31:7 zero; CTRL and ERR_CODE likewise
(R23, R26, R45). -/
def Obligations.StatusBitsAsLaidOut : Prop :=
  ∀ s : State,
    (statusWord s).getLsbD 0 = s.busy ∧ (statusWord s).getLsbD 1 = s.active ∧
    (statusWord s).getLsbD 2 = s.done ∧ (statusWord s).getLsbD 3 = s.err ∧
    (statusWord s).getLsbD 4 = s.bootOk ∧ (statusWord s).getLsbD 5 = s.outValid ∧
    (statusWord s).getLsbD 6 = decide (s.region = .prog) ∧ (statusWord s).extractLsb' 7 25 = 0#25 ∧
    (ctrlWord s).getLsbD 0 = s.bootEn ∧ (ctrlWord s).getLsbD 1 = s.emptyBlk ∧
    (ctrlWord s).extractLsb' 2 30 = 0#30 ∧
    (errCodeWord s).extractLsb' 0 8 = s.errCode ∧ (errCodeWord s).extractLsb' 8 24 = 0#24

/-- An idle block's writable registers take what is written and nothing else changes: CTRL its two field
bits (the reserved bits written are ignored), the other RW-L registers all 32 bits, BOOT_LEN clearing
BOOT_OK as well; each reads back what it then holds, and CMD reads as zero (R22, R23, R45, R46, R57). -/
def Obligations.RegistersReadBackWrites : Prop :=
  ∀ (s : State) (w : Word), s.busy = false → s.active = false →
    busTransaction (.write 0x000#12 w) s =
      respond .okayWrite { s with bootEn := w.getLsbD 0, emptyBlk := w.getLsbD 1 } ∧
    busTransaction (.write 0x014#12 w) s = respond .okayWrite { s with bootLen := w, bootOk := false } ∧
    busTransaction (.write 0x018#12 w) s = respond .okayWrite { s with progLen := w } ∧
    busTransaction (.write 0x01C#12 w) s = respond .okayWrite { s with bootBase := w } ∧
    busTransaction (.write 0x020#12 w) s = respond .okayWrite { s with progBase := w } ∧
    busTransaction (.write 0x024#12 w) s = respond .okayWrite { s with familyId := w } ∧
    (∃ t, busTransaction (.write 0x000#12 w) s = respond .okayWrite t ∧
      busTransaction (.read 0x000#12) t = respond (.okayRead (w &&& 3#32)) t) ∧
    (∀ off ∈ [0x014#12, 0x018#12, 0x01C#12, 0x020#12, 0x024#12],
      ∃ t, busTransaction (.write off w) s = respond .okayWrite t ∧
        busTransaction (.read off) t = respond (.okayRead w) t) ∧
    busTransaction (.read 0x004#12) s = respond (.okayRead 0#32) s

/-- While BUSY = 0, a read of each register's offset returns that register and changes nothing (R22 to R29,
R33 to R39, R52). -/
def Obligations.RegisterReadsByOffset : Prop :=
  ∀ s : State, s.busy = false →
    busTransaction (.read 0x000#12) s = respond (.okayRead (ctrlWord s)) s ∧
    busTransaction (.read 0x004#12) s = respond (.okayRead 0#32) s ∧
    busTransaction (.read 0x008#12) s = respond (.okayRead (statusWord s)) s ∧
    busTransaction (.read 0x00C#12) s = respond (.okayRead (s.errCode.setWidth 32)) s ∧
    busTransaction (.read 0x010#12) s = respond (.okayRead s.errCmd) s ∧
    busTransaction (.read 0x014#12) s = respond (.okayRead s.bootLen) s ∧
    busTransaction (.read 0x018#12) s = respond (.okayRead s.progLen) s ∧
    busTransaction (.read 0x01C#12) s = respond (.okayRead s.bootBase) s ∧
    busTransaction (.read 0x020#12) s = respond (.okayRead s.progBase) s ∧
    busTransaction (.read 0x024#12) s = respond (.okayRead s.familyId) s ∧
    busTransaction (.read 0x028#12) s = respond (.okayRead s.crcResult) s ∧
    busTransaction (.read 0x02C#12) s = respond (.okayRead s.totalBlocks) s ∧
    busTransaction (.read 0x030#12) s = respond (.okayRead s.blockIndex) s ∧
    busTransaction (.read 0x034#12) s = respond (.okayRead s.regionPos) s

/-- R53: a window word is little-endian. With k the word's index in its window, a read of an idle block
returns `MemRead(BUF, 4k, 4)`; an accepted write stores the data's bytes at 4k to 4k+3, least significant
first, and leaves every other byte and, but for BOOT_OK when the window is BOOT_BUF, every register. -/
def Obligations.WindowWordsLittleEndian : Prop :=
  ∀ (b : Buffer) (k : Nat) (s : State), 4 * k < b.size → s.busy = false →
    busTransaction (.read (BitVec.ofNat 12 (b.base + 4 * k))) s =
      respond (.okayRead (BitVec.ofNat 32 (memRead b (4 * k) 4 s))) s ∧
    ∀ w : Word, b ≠ .out → (b = .boot → s.active = false) →
      ∃ t, busTransaction (.write (BitVec.ofNat 12 (b.base + 4 * k)) w) s = respond .okayWrite t ∧
        (∀ j, j < 4 → byteAt t (b.base + 4 * k + j) = w.extractLsb' (8 * j) 8) ∧
        (∀ a, ¬(b.base + 4 * k ≤ a ∧ a < b.base + 4 * k + 4) → byteAt t a = byteAt s a) ∧
        { t with mem := s.mem, bootOk := s.bootOk } = s ∧ (b = .data → t.bootOk = s.bootOk) ∧
        busTransaction (.read (BitVec.ofNat 12 (b.base + 4 * k))) t = respond (.okayRead w) t

/-- R46: an accepted host write to any word of BOOT_BUF, or to BOOT_LEN, sets BOOT_OK to 0 in the same
transaction, whatever data it writes; a refused write leaves BOOT_OK unchanged. -/
def Obligations.BootWritesClearBootOk : Prop :=
  ∀ (off : Offset) (w : Word) (s : State),
    (off.toNat % 4 = 0 → (off = 0x014#12 ∨ (0x100 ≤ off.toNat ∧ off.toNat < 0x200)) →
      s.busy = false → s.active = false →
      (busTransaction (.write off w) s).responses = .okayWrite :: s.responses ∧
      (busTransaction (.write off w) s).bootOk = false) ∧
    ((busTransaction (.write off w) s).responses = .error :: s.responses →
      (busTransaction (.write off w) s).bootOk = s.bootOk)

/-- R120: an accepted write of CMD latches the word and sets BUSY, and nothing else changes; it is refused
only while BUSY = 1, an active pass or not. -/
def Obligations.CmdWriteLatchesCommand : Prop :=
  ∀ (w : Word) (s : State),
    (s.busy = false →
      busTransaction (.write 0x004#12 w) s =
        respond .okayWrite { s with pendingCmd := w, busy := true }) ∧
    (s.busy = true → busTransaction (.write 0x004#12 w) s = respond .error s)

/-- R57: no read changes the block; a write other than CMD's, repeated, leaves the block as one write
leaves it, and a second write of CMD while BUSY is refused. -/
def Obligations.ReadsInertWritesIdempotent : Prop :=
  (∀ (off : Offset) (s : State), blockState (busTransaction (.read off) s) = blockState s) ∧
  (∀ (off : Offset) (w : Word) (s : State), off ≠ 0x004#12 →
    blockState (busTransaction (.write off w) (busTransaction (.write off w) s)) =
      blockState (busTransaction (.write off w) s)) ∧
  (∀ (w v : Word) (s : State), s.busy = false →
    ∃ t, busTransaction (.write 0x004#12 w) s = respond .okayWrite t ∧ t.busy = true ∧
      busTransaction (.write 0x004#12 v) t = respond .error t)

/-- While BUSY = 1 nothing the host does changes the latched command or any other part of the block: every
transaction leaves the block's state as it was (R58, R64, R165). -/
def Obligations.BusyBlockIgnoresHost : Prop :=
  ∀ (x : BusTxn) (s : State), s.busy = true → blockState (busTransaction x s) = blockState s

/-- Polling STATUS synchronises: from BUSY = 1, a step either is a host transaction that leaves BUSY and the
whole block as they were, or is the engine step of the latched command, or is a reset; and the word a STATUS
read returns has BUSY in bit 0. So a read that shows BUSY = 0 comes after the engine step (R60, R61, R64).
The agenda is the model's own (assumption 1). -/
def Obligations.BusyPollSynchronises : Prop :=
  ∀ s t : State, s.busy = true → step s = .next t →
    (t.busy = true → blockState t = blockState s ∧ t.pendingCmd = s.pendingCmd ∧
      ∃ x rest, s.agenda = .host x :: rest ∧ t = busTransaction x { s with agenda := rest }) ∧
    (t.busy = false →
      (∃ rest, engineStep { s with agenda := rest } = .next t) ∨
      (∃ rest, s.agenda = .reset :: rest)) ∧
    ∃ v : Word, busTransaction (.read 0x008#12) t = respond (.okayRead v) t ∧ v.getLsbD 0 = t.busy

/-- R168: while ACTIVE = 1, a write to CTRL, BOOT_LEN, PROG_LEN, BOOT_BASE, PROG_BASE, FAMILY_ID or BOOT_BUF
is refused, and no transaction changes any of them. -/
def Obligations.ConfigurationLockedWhileActive : Prop :=
  ∀ s : State, s.active = true →
    (∀ (off : Offset) (w : Word),
      (off ∈ [0x000#12, 0x014#12, 0x018#12, 0x01C#12, 0x020#12, 0x024#12] ∨
        (0x100 ≤ off.toNat ∧ off.toNat < 0x200)) →
      busTransaction (.write off w) s = respond .error s) ∧
    ∀ x : BusTxn,
      (busTransaction x s).bootEn = s.bootEn ∧ (busTransaction x s).emptyBlk = s.emptyBlk ∧
      (busTransaction x s).bootLen = s.bootLen ∧ (busTransaction x s).progLen = s.progLen ∧
      (busTransaction x s).bootBase = s.bootBase ∧ (busTransaction x s).progBase = s.progBase ∧
      (busTransaction x s).familyId = s.familyId ∧ (busTransaction x s).active = true ∧
      bufBytes .boot 0 256 (busTransaction x s) = bufBytes .boot 0 256 s

/-- A buffer byte is fixed until something writes it, a byte never written among them (R161). Every step that
is not a reset and does not store at the byte (an accepted host write of its word, INJECT's checksum field,
EMIT's record) leaves it; and two reads of a word with nothing between them answer the same. The form of a
draw is the model's own (assumption 3), and so is the agenda (assumption 1). -/
def Obligations.UnwrittenBytesReadStable : Prop :=
  (∀ (s t : State) (a : Nat), step s = .next t → (∀ rest, s.agenda ≠ .reset :: rest) →
    ¬stepStoresAt a s → byteAt t a = byteAt s a) ∧
  ∀ (off : Offset) (s : State), s.busy = false →
    ∃ r, busTransaction (.read off) s = respond r s ∧
      busTransaction (.read off) (busTransaction (.read off) s) = respond r (respond r s)

/-- The window's offset of a platform address is that address less `U2E_BASE`, for exactly the 4096
addresses of the window, whatever `U2E_BASE` is (R8, R51). That it is an opaque number is the model's form
(assumption 14). -/
def Obligations.WindowOffsetFromBase : Prop :=
  ∀ off : Offset, windowOffset (Config.u2eBase + off.toNat) = some off ∧
    ∀ addr, windowOffset addr = some off → addr = Config.u2eBase + off.toNat

/-! ### Whole-machine claims -/

/-- The invariant of Safety.lean, kept by every step from every state that has it: the memory's form, the
sequencer's relations, what BOOT_OK stands for, and what the error registers hold. -/
def Obligations.StepKeepsInvariant : Prop :=
  ∀ s t : State, BlockInv s → step s = .next t → BlockInv t

/-- The reset state has the invariant. -/
def Obligations.ResetHasInvariant : Prop := BlockInv State.reset

/-- R41: in every reachable state the sequencer's invariants 1 to 6 hold, and invariant 7 holds of the
engine step that sets DONE: a START or EMIT that does not raise and leaves DONE = 1 with REGION = PROG
leaves REGION_POS = PROG_LEN. The plans of `Reachable`, which let the host, the scheduler and the platform
choose any finite course of steps at any time, are the model's own (assumption 1). -/
def Obligations.SequencerInvariantsReachable : Prop :=
  ∀ s : State, Reachable s →
    ¬(s.active = true ∧ s.done = true) ∧
    s.blockIndex.toNat ≤ s.totalBlocks.toNat ∧
    (s.active = true → s.blockIndex.toNat < s.totalBlocks.toNat) ∧
    (s.active = true → s.region = .boot →
      s.blockIndex = 0#32 ∧ s.regionPos = 0#32 ∧ s.bootEn = true) ∧
    (s.active = true → s.region = .prog → s.regionPos.toNat % 256 = 0 ∧
      (s.regionPos.toNat < s.progLen.toNat ∨ (s.progLen = 0#32 ∧ s.regionPos = 0#32))) ∧
    (s.done = true → s.blockIndex = s.totalBlocks) ∧
    (∀ (i : Instr) (t : State), i = .start ∨ i = .emit → s.err = false → exec i s = .next t →
      t.err = false → t.done = true → t.region = .prog → t.regionPos = t.progLen)

/-- The engine's step comes within finitely many steps, and within no fixed number: from every state with
BUSY = 1 the block is not busy after at most one step more than the agenda is long, and for every n there is
a run in which n STATUS reads all return BUSY = 1 first (R171). That a plan is a finite list is the model's
choice (assumption 1). -/
def Obligations.EngineStepEventuallyOccurs : Prop :=
  (∀ s : State, s.busy = true →
    ∃ (k : Nat) (t : State), k ≤ s.agenda.length + 1 ∧ core.run k s = .next t ∧ t.busy = false) ∧
  (∀ (n : Nat) (s : State), s.busy = true →
    s.agenda = List.replicate n (.host (.read 0x008#12)) →
    ∃ t : State, core.run n s = .next t ∧ t.busy = true ∧
      t.responses = List.replicate n (.okayRead (statusWord s)) ++ s.responses)

/-- A run that has ended stays ended: a quiescent block changes nothing more (R152, R154). That a run counts
as ended without a STATUS read that returned BUSY = 0 is the model's choice (assumption 17). -/
def Obligations.EndedRunStays : Prop :=
  ∀ (s : State) (k : Nat), runEnded s → core.run k s = .next s
end

