-- ==== Sys2Proof/Laws/State.lean ====
section
/-! SUPPORT. One lemma per field and update, true by rfl: what each operation on State leaves in each
field, so that no proof unfolds a record update. -/

namespace Sys2Proof.Machine

variable (s : State)

/-! ### complete -/

@[simp] theorem complete_bootEn : (complete s).bootEn = s.bootEn := rfl
@[simp] theorem complete_emptyBlk : (complete s).emptyBlk = s.emptyBlk := rfl
@[simp] theorem complete_busy : (complete s).busy = false := rfl
@[simp] theorem complete_active : (complete s).active = s.active := rfl
@[simp] theorem complete_done : (complete s).done = s.done := rfl
@[simp] theorem complete_err : (complete s).err = s.err := rfl
@[simp] theorem complete_bootOk : (complete s).bootOk = s.bootOk := rfl
@[simp] theorem complete_outValid : (complete s).outValid = s.outValid := rfl
@[simp] theorem complete_region : (complete s).region = s.region := rfl
@[simp] theorem complete_errCode : (complete s).errCode = s.errCode := rfl
@[simp] theorem complete_errCmd : (complete s).errCmd = s.errCmd := rfl
@[simp] theorem complete_bootLen : (complete s).bootLen = s.bootLen := rfl
@[simp] theorem complete_progLen : (complete s).progLen = s.progLen := rfl
@[simp] theorem complete_bootBase : (complete s).bootBase = s.bootBase := rfl
@[simp] theorem complete_progBase : (complete s).progBase = s.progBase := rfl
@[simp] theorem complete_familyId : (complete s).familyId = s.familyId := rfl
@[simp] theorem complete_crcResult : (complete s).crcResult = s.crcResult := rfl
@[simp] theorem complete_totalBlocks : (complete s).totalBlocks = s.totalBlocks := rfl
@[simp] theorem complete_blockIndex : (complete s).blockIndex = s.blockIndex := rfl
@[simp] theorem complete_regionPos : (complete s).regionPos = s.regionPos := rfl
@[simp] theorem complete_pendingCmd : (complete s).pendingCmd = s.pendingCmd := rfl
@[simp] theorem complete_mem : (complete s).mem = s.mem := rfl
@[simp] theorem complete_resetDraw : (complete s).resetDraw = s.resetDraw := rfl
@[simp] theorem complete_busyDraw : (complete s).busyDraw = s.busyDraw := rfl
@[simp] theorem complete_agenda : (complete s).agenda = s.agenda := rfl
@[simp] theorem complete_responses : (complete s).responses = s.responses := rfl

/-! ### raise -/

@[simp] theorem raise_bootEn (e : CommandError) (w : Word) : (raise e w s).bootEn = s.bootEn := rfl
@[simp] theorem raise_emptyBlk (e : CommandError) (w : Word) : (raise e w s).emptyBlk = s.emptyBlk := rfl
@[simp] theorem raise_busy (e : CommandError) (w : Word) : (raise e w s).busy = s.busy := rfl
@[simp] theorem raise_active (e : CommandError) (w : Word) : (raise e w s).active = s.active := rfl
@[simp] theorem raise_done (e : CommandError) (w : Word) : (raise e w s).done = s.done := rfl
@[simp] theorem raise_err (e : CommandError) (w : Word) : (raise e w s).err = true := rfl
@[simp] theorem raise_bootOk (e : CommandError) (w : Word) : (raise e w s).bootOk = s.bootOk := rfl
@[simp] theorem raise_outValid (e : CommandError) (w : Word) : (raise e w s).outValid = s.outValid := rfl
@[simp] theorem raise_region (e : CommandError) (w : Word) : (raise e w s).region = s.region := rfl
@[simp] theorem raise_errCode (e : CommandError) (w : Word) : (raise e w s).errCode = e.code := rfl
@[simp] theorem raise_errCmd (e : CommandError) (w : Word) : (raise e w s).errCmd = w := rfl
@[simp] theorem raise_bootLen (e : CommandError) (w : Word) : (raise e w s).bootLen = s.bootLen := rfl
@[simp] theorem raise_progLen (e : CommandError) (w : Word) : (raise e w s).progLen = s.progLen := rfl
@[simp] theorem raise_bootBase (e : CommandError) (w : Word) : (raise e w s).bootBase = s.bootBase := rfl
@[simp] theorem raise_progBase (e : CommandError) (w : Word) : (raise e w s).progBase = s.progBase := rfl
@[simp] theorem raise_familyId (e : CommandError) (w : Word) : (raise e w s).familyId = s.familyId := rfl
@[simp] theorem raise_crcResult (e : CommandError) (w : Word) : (raise e w s).crcResult = s.crcResult := rfl
@[simp] theorem raise_totalBlocks (e : CommandError) (w : Word) : (raise e w s).totalBlocks = s.totalBlocks := rfl
@[simp] theorem raise_blockIndex (e : CommandError) (w : Word) : (raise e w s).blockIndex = s.blockIndex := rfl
@[simp] theorem raise_regionPos (e : CommandError) (w : Word) : (raise e w s).regionPos = s.regionPos := rfl
@[simp] theorem raise_pendingCmd (e : CommandError) (w : Word) : (raise e w s).pendingCmd = s.pendingCmd := rfl
@[simp] theorem raise_mem (e : CommandError) (w : Word) : (raise e w s).mem = s.mem := rfl
@[simp] theorem raise_resetDraw (e : CommandError) (w : Word) : (raise e w s).resetDraw = s.resetDraw := rfl
@[simp] theorem raise_busyDraw (e : CommandError) (w : Word) : (raise e w s).busyDraw = s.busyDraw := rfl
@[simp] theorem raise_agenda (e : CommandError) (w : Word) : (raise e w s).agenda = s.agenda := rfl
@[simp] theorem raise_responses (e : CommandError) (w : Word) : (raise e w s).responses = s.responses := rfl

/-! ### clearError -/

@[simp] theorem clearError_bootEn : (clearError s).bootEn = s.bootEn := rfl
@[simp] theorem clearError_emptyBlk : (clearError s).emptyBlk = s.emptyBlk := rfl
@[simp] theorem clearError_busy : (clearError s).busy = s.busy := rfl
@[simp] theorem clearError_active : (clearError s).active = s.active := rfl
@[simp] theorem clearError_done : (clearError s).done = s.done := rfl
@[simp] theorem clearError_err : (clearError s).err = false := rfl
@[simp] theorem clearError_bootOk : (clearError s).bootOk = s.bootOk := rfl
@[simp] theorem clearError_outValid : (clearError s).outValid = s.outValid := rfl
@[simp] theorem clearError_region : (clearError s).region = s.region := rfl
@[simp] theorem clearError_errCode : (clearError s).errCode = 0#8 := rfl
@[simp] theorem clearError_errCmd : (clearError s).errCmd = 0#32 := rfl
@[simp] theorem clearError_bootLen : (clearError s).bootLen = s.bootLen := rfl
@[simp] theorem clearError_progLen : (clearError s).progLen = s.progLen := rfl
@[simp] theorem clearError_bootBase : (clearError s).bootBase = s.bootBase := rfl
@[simp] theorem clearError_progBase : (clearError s).progBase = s.progBase := rfl
@[simp] theorem clearError_familyId : (clearError s).familyId = s.familyId := rfl
@[simp] theorem clearError_crcResult : (clearError s).crcResult = s.crcResult := rfl
@[simp] theorem clearError_totalBlocks : (clearError s).totalBlocks = s.totalBlocks := rfl
@[simp] theorem clearError_blockIndex : (clearError s).blockIndex = s.blockIndex := rfl
@[simp] theorem clearError_regionPos : (clearError s).regionPos = s.regionPos := rfl
@[simp] theorem clearError_pendingCmd : (clearError s).pendingCmd = s.pendingCmd := rfl
@[simp] theorem clearError_mem : (clearError s).mem = s.mem := rfl
@[simp] theorem clearError_resetDraw : (clearError s).resetDraw = s.resetDraw := rfl
@[simp] theorem clearError_busyDraw : (clearError s).busyDraw = s.busyDraw := rfl
@[simp] theorem clearError_agenda : (clearError s).agenda = s.agenda := rfl
@[simp] theorem clearError_responses : (clearError s).responses = s.responses := rfl

/-! ### clearPass -/

@[simp] theorem clearPass_bootEn : (clearPass s).bootEn = s.bootEn := rfl
@[simp] theorem clearPass_emptyBlk : (clearPass s).emptyBlk = s.emptyBlk := rfl
@[simp] theorem clearPass_busy : (clearPass s).busy = s.busy := rfl
@[simp] theorem clearPass_active : (clearPass s).active = false := rfl
@[simp] theorem clearPass_done : (clearPass s).done = false := rfl
@[simp] theorem clearPass_err : (clearPass s).err = s.err := rfl
@[simp] theorem clearPass_bootOk : (clearPass s).bootOk = s.bootOk := rfl
@[simp] theorem clearPass_outValid : (clearPass s).outValid = false := rfl
@[simp] theorem clearPass_region : (clearPass s).region = .boot := rfl
@[simp] theorem clearPass_errCode : (clearPass s).errCode = s.errCode := rfl
@[simp] theorem clearPass_errCmd : (clearPass s).errCmd = s.errCmd := rfl
@[simp] theorem clearPass_bootLen : (clearPass s).bootLen = s.bootLen := rfl
@[simp] theorem clearPass_progLen : (clearPass s).progLen = s.progLen := rfl
@[simp] theorem clearPass_bootBase : (clearPass s).bootBase = s.bootBase := rfl
@[simp] theorem clearPass_progBase : (clearPass s).progBase = s.progBase := rfl
@[simp] theorem clearPass_familyId : (clearPass s).familyId = s.familyId := rfl
@[simp] theorem clearPass_crcResult : (clearPass s).crcResult = s.crcResult := rfl
@[simp] theorem clearPass_totalBlocks : (clearPass s).totalBlocks = 0#32 := rfl
@[simp] theorem clearPass_blockIndex : (clearPass s).blockIndex = 0#32 := rfl
@[simp] theorem clearPass_regionPos : (clearPass s).regionPos = 0#32 := rfl
@[simp] theorem clearPass_pendingCmd : (clearPass s).pendingCmd = s.pendingCmd := rfl
@[simp] theorem clearPass_mem : (clearPass s).mem = s.mem := rfl
@[simp] theorem clearPass_resetDraw : (clearPass s).resetDraw = s.resetDraw := rfl
@[simp] theorem clearPass_busyDraw : (clearPass s).busyDraw = s.busyDraw := rfl
@[simp] theorem clearPass_agenda : (clearPass s).agenda = s.agenda := rfl
@[simp] theorem clearPass_responses : (clearPass s).responses = s.responses := rfl

/-! ### respond -/

@[simp] theorem respond_bootEn (r : BusResponse) : (respond r s).bootEn = s.bootEn := rfl
@[simp] theorem respond_emptyBlk (r : BusResponse) : (respond r s).emptyBlk = s.emptyBlk := rfl
@[simp] theorem respond_busy (r : BusResponse) : (respond r s).busy = s.busy := rfl
@[simp] theorem respond_active (r : BusResponse) : (respond r s).active = s.active := rfl
@[simp] theorem respond_done (r : BusResponse) : (respond r s).done = s.done := rfl
@[simp] theorem respond_err (r : BusResponse) : (respond r s).err = s.err := rfl
@[simp] theorem respond_bootOk (r : BusResponse) : (respond r s).bootOk = s.bootOk := rfl
@[simp] theorem respond_outValid (r : BusResponse) : (respond r s).outValid = s.outValid := rfl
@[simp] theorem respond_region (r : BusResponse) : (respond r s).region = s.region := rfl
@[simp] theorem respond_errCode (r : BusResponse) : (respond r s).errCode = s.errCode := rfl
@[simp] theorem respond_errCmd (r : BusResponse) : (respond r s).errCmd = s.errCmd := rfl
@[simp] theorem respond_bootLen (r : BusResponse) : (respond r s).bootLen = s.bootLen := rfl
@[simp] theorem respond_progLen (r : BusResponse) : (respond r s).progLen = s.progLen := rfl
@[simp] theorem respond_bootBase (r : BusResponse) : (respond r s).bootBase = s.bootBase := rfl
@[simp] theorem respond_progBase (r : BusResponse) : (respond r s).progBase = s.progBase := rfl
@[simp] theorem respond_familyId (r : BusResponse) : (respond r s).familyId = s.familyId := rfl
@[simp] theorem respond_crcResult (r : BusResponse) : (respond r s).crcResult = s.crcResult := rfl
@[simp] theorem respond_totalBlocks (r : BusResponse) : (respond r s).totalBlocks = s.totalBlocks := rfl
@[simp] theorem respond_blockIndex (r : BusResponse) : (respond r s).blockIndex = s.blockIndex := rfl
@[simp] theorem respond_regionPos (r : BusResponse) : (respond r s).regionPos = s.regionPos := rfl
@[simp] theorem respond_pendingCmd (r : BusResponse) : (respond r s).pendingCmd = s.pendingCmd := rfl
@[simp] theorem respond_mem (r : BusResponse) : (respond r s).mem = s.mem := rfl
@[simp] theorem respond_resetDraw (r : BusResponse) : (respond r s).resetDraw = s.resetDraw := rfl
@[simp] theorem respond_busyDraw (r : BusResponse) : (respond r s).busyDraw = s.busyDraw := rfl
@[simp] theorem respond_agenda (r : BusResponse) : (respond r s).agenda = s.agenda := rfl
@[simp] theorem respond_responses (r : BusResponse) : (respond r s).responses = r :: s.responses := rfl

/-! ### storeBytes -/

@[simp] theorem storeBytes_bootEn (b : Buffer) (off : Nat) (bs : List Byte) : (storeBytes b off bs s).bootEn = s.bootEn := rfl
@[simp] theorem storeBytes_emptyBlk (b : Buffer) (off : Nat) (bs : List Byte) : (storeBytes b off bs s).emptyBlk = s.emptyBlk := rfl
@[simp] theorem storeBytes_busy (b : Buffer) (off : Nat) (bs : List Byte) : (storeBytes b off bs s).busy = s.busy := rfl
@[simp] theorem storeBytes_active (b : Buffer) (off : Nat) (bs : List Byte) : (storeBytes b off bs s).active = s.active := rfl
@[simp] theorem storeBytes_done (b : Buffer) (off : Nat) (bs : List Byte) : (storeBytes b off bs s).done = s.done := rfl
@[simp] theorem storeBytes_err (b : Buffer) (off : Nat) (bs : List Byte) : (storeBytes b off bs s).err = s.err := rfl
@[simp] theorem storeBytes_bootOk (b : Buffer) (off : Nat) (bs : List Byte) : (storeBytes b off bs s).bootOk = s.bootOk := rfl
@[simp] theorem storeBytes_outValid (b : Buffer) (off : Nat) (bs : List Byte) : (storeBytes b off bs s).outValid = s.outValid := rfl
@[simp] theorem storeBytes_region (b : Buffer) (off : Nat) (bs : List Byte) : (storeBytes b off bs s).region = s.region := rfl
@[simp] theorem storeBytes_errCode (b : Buffer) (off : Nat) (bs : List Byte) : (storeBytes b off bs s).errCode = s.errCode := rfl
@[simp] theorem storeBytes_errCmd (b : Buffer) (off : Nat) (bs : List Byte) : (storeBytes b off bs s).errCmd = s.errCmd := rfl
@[simp] theorem storeBytes_bootLen (b : Buffer) (off : Nat) (bs : List Byte) : (storeBytes b off bs s).bootLen = s.bootLen := rfl
@[simp] theorem storeBytes_progLen (b : Buffer) (off : Nat) (bs : List Byte) : (storeBytes b off bs s).progLen = s.progLen := rfl
@[simp] theorem storeBytes_bootBase (b : Buffer) (off : Nat) (bs : List Byte) : (storeBytes b off bs s).bootBase = s.bootBase := rfl
@[simp] theorem storeBytes_progBase (b : Buffer) (off : Nat) (bs : List Byte) : (storeBytes b off bs s).progBase = s.progBase := rfl
@[simp] theorem storeBytes_familyId (b : Buffer) (off : Nat) (bs : List Byte) : (storeBytes b off bs s).familyId = s.familyId := rfl
@[simp] theorem storeBytes_crcResult (b : Buffer) (off : Nat) (bs : List Byte) : (storeBytes b off bs s).crcResult = s.crcResult := rfl
@[simp] theorem storeBytes_totalBlocks (b : Buffer) (off : Nat) (bs : List Byte) : (storeBytes b off bs s).totalBlocks = s.totalBlocks := rfl
@[simp] theorem storeBytes_blockIndex (b : Buffer) (off : Nat) (bs : List Byte) : (storeBytes b off bs s).blockIndex = s.blockIndex := rfl
@[simp] theorem storeBytes_regionPos (b : Buffer) (off : Nat) (bs : List Byte) : (storeBytes b off bs s).regionPos = s.regionPos := rfl
@[simp] theorem storeBytes_pendingCmd (b : Buffer) (off : Nat) (bs : List Byte) : (storeBytes b off bs s).pendingCmd = s.pendingCmd := rfl
@[simp] theorem storeBytes_mem (b : Buffer) (off : Nat) (bs : List Byte) : (storeBytes b off bs s).mem = Memory.writeBytes s.mem (b.base + off) bs := rfl
@[simp] theorem storeBytes_resetDraw (b : Buffer) (off : Nat) (bs : List Byte) : (storeBytes b off bs s).resetDraw = s.resetDraw := rfl
@[simp] theorem storeBytes_busyDraw (b : Buffer) (off : Nat) (bs : List Byte) : (storeBytes b off bs s).busyDraw = s.busyDraw := rfl
@[simp] theorem storeBytes_agenda (b : Buffer) (off : Nat) (bs : List Byte) : (storeBytes b off bs s).agenda = s.agenda := rfl
@[simp] theorem storeBytes_responses (b : Buffer) (off : Nat) (bs : List Byte) : (storeBytes b off bs s).responses = s.responses := rfl

/-! ### memWrite -/

@[simp] theorem memWrite_bootEn (b : Buffer) (off n v : Nat) : (memWrite b off n v s).bootEn = s.bootEn := rfl
@[simp] theorem memWrite_emptyBlk (b : Buffer) (off n v : Nat) : (memWrite b off n v s).emptyBlk = s.emptyBlk := rfl
@[simp] theorem memWrite_busy (b : Buffer) (off n v : Nat) : (memWrite b off n v s).busy = s.busy := rfl
@[simp] theorem memWrite_active (b : Buffer) (off n v : Nat) : (memWrite b off n v s).active = s.active := rfl
@[simp] theorem memWrite_done (b : Buffer) (off n v : Nat) : (memWrite b off n v s).done = s.done := rfl
@[simp] theorem memWrite_err (b : Buffer) (off n v : Nat) : (memWrite b off n v s).err = s.err := rfl
@[simp] theorem memWrite_bootOk (b : Buffer) (off n v : Nat) : (memWrite b off n v s).bootOk = s.bootOk := rfl
@[simp] theorem memWrite_outValid (b : Buffer) (off n v : Nat) : (memWrite b off n v s).outValid = s.outValid := rfl
@[simp] theorem memWrite_region (b : Buffer) (off n v : Nat) : (memWrite b off n v s).region = s.region := rfl
@[simp] theorem memWrite_errCode (b : Buffer) (off n v : Nat) : (memWrite b off n v s).errCode = s.errCode := rfl
@[simp] theorem memWrite_errCmd (b : Buffer) (off n v : Nat) : (memWrite b off n v s).errCmd = s.errCmd := rfl
@[simp] theorem memWrite_bootLen (b : Buffer) (off n v : Nat) : (memWrite b off n v s).bootLen = s.bootLen := rfl
@[simp] theorem memWrite_progLen (b : Buffer) (off n v : Nat) : (memWrite b off n v s).progLen = s.progLen := rfl
@[simp] theorem memWrite_bootBase (b : Buffer) (off n v : Nat) : (memWrite b off n v s).bootBase = s.bootBase := rfl
@[simp] theorem memWrite_progBase (b : Buffer) (off n v : Nat) : (memWrite b off n v s).progBase = s.progBase := rfl
@[simp] theorem memWrite_familyId (b : Buffer) (off n v : Nat) : (memWrite b off n v s).familyId = s.familyId := rfl
@[simp] theorem memWrite_crcResult (b : Buffer) (off n v : Nat) : (memWrite b off n v s).crcResult = s.crcResult := rfl
@[simp] theorem memWrite_totalBlocks (b : Buffer) (off n v : Nat) : (memWrite b off n v s).totalBlocks = s.totalBlocks := rfl
@[simp] theorem memWrite_blockIndex (b : Buffer) (off n v : Nat) : (memWrite b off n v s).blockIndex = s.blockIndex := rfl
@[simp] theorem memWrite_regionPos (b : Buffer) (off n v : Nat) : (memWrite b off n v s).regionPos = s.regionPos := rfl
@[simp] theorem memWrite_pendingCmd (b : Buffer) (off n v : Nat) : (memWrite b off n v s).pendingCmd = s.pendingCmd := rfl
@[simp] theorem memWrite_mem (b : Buffer) (off n v : Nat) : (memWrite b off n v s).mem = Memory.writeBytes s.mem (b.base + off) (leBytes n v) := rfl
@[simp] theorem memWrite_resetDraw (b : Buffer) (off n v : Nat) : (memWrite b off n v s).resetDraw = s.resetDraw := rfl
@[simp] theorem memWrite_busyDraw (b : Buffer) (off n v : Nat) : (memWrite b off n v s).busyDraw = s.busyDraw := rfl
@[simp] theorem memWrite_agenda (b : Buffer) (off n v : Nat) : (memWrite b off n v s).agenda = s.agenda := rfl
@[simp] theorem memWrite_responses (b : Buffer) (off n v : Nat) : (memWrite b off n v s).responses = s.responses := rfl

/-! ### checkChecksum -/

@[simp] theorem checkChecksum_bootEn : (checkChecksum s).bootEn = s.bootEn := rfl
@[simp] theorem checkChecksum_emptyBlk : (checkChecksum s).emptyBlk = s.emptyBlk := rfl
@[simp] theorem checkChecksum_busy : (checkChecksum s).busy = s.busy := rfl
@[simp] theorem checkChecksum_active : (checkChecksum s).active = s.active := rfl
@[simp] theorem checkChecksum_done : (checkChecksum s).done = s.done := rfl
@[simp] theorem checkChecksum_err : (checkChecksum s).err = s.err := rfl
@[simp] theorem checkChecksum_bootOk : (checkChecksum s).bootOk = decide (storedChecksum s = (crc32 (bootBody s)).toNat) := rfl
@[simp] theorem checkChecksum_outValid : (checkChecksum s).outValid = s.outValid := rfl
@[simp] theorem checkChecksum_region : (checkChecksum s).region = s.region := rfl
@[simp] theorem checkChecksum_errCode : (checkChecksum s).errCode = s.errCode := rfl
@[simp] theorem checkChecksum_errCmd : (checkChecksum s).errCmd = s.errCmd := rfl
@[simp] theorem checkChecksum_bootLen : (checkChecksum s).bootLen = s.bootLen := rfl
@[simp] theorem checkChecksum_progLen : (checkChecksum s).progLen = s.progLen := rfl
@[simp] theorem checkChecksum_bootBase : (checkChecksum s).bootBase = s.bootBase := rfl
@[simp] theorem checkChecksum_progBase : (checkChecksum s).progBase = s.progBase := rfl
@[simp] theorem checkChecksum_familyId : (checkChecksum s).familyId = s.familyId := rfl
@[simp] theorem checkChecksum_crcResult : (checkChecksum s).crcResult = crc32 (bootBody s) := rfl
@[simp] theorem checkChecksum_totalBlocks : (checkChecksum s).totalBlocks = s.totalBlocks := rfl
@[simp] theorem checkChecksum_blockIndex : (checkChecksum s).blockIndex = s.blockIndex := rfl
@[simp] theorem checkChecksum_regionPos : (checkChecksum s).regionPos = s.regionPos := rfl
@[simp] theorem checkChecksum_pendingCmd : (checkChecksum s).pendingCmd = s.pendingCmd := rfl
@[simp] theorem checkChecksum_mem : (checkChecksum s).mem = s.mem := rfl
@[simp] theorem checkChecksum_resetDraw : (checkChecksum s).resetDraw = s.resetDraw := rfl
@[simp] theorem checkChecksum_busyDraw : (checkChecksum s).busyDraw = s.busyDraw := rfl
@[simp] theorem checkChecksum_agenda : (checkChecksum s).agenda = s.agenda := rfl
@[simp] theorem checkChecksum_responses : (checkChecksum s).responses = s.responses := rfl

/-! ### injectChecksum -/

@[simp] theorem injectChecksum_bootEn : (injectChecksum s).bootEn = s.bootEn := rfl
@[simp] theorem injectChecksum_emptyBlk : (injectChecksum s).emptyBlk = s.emptyBlk := rfl
@[simp] theorem injectChecksum_busy : (injectChecksum s).busy = s.busy := rfl
@[simp] theorem injectChecksum_active : (injectChecksum s).active = s.active := rfl
@[simp] theorem injectChecksum_done : (injectChecksum s).done = s.done := rfl
@[simp] theorem injectChecksum_err : (injectChecksum s).err = s.err := rfl
@[simp] theorem injectChecksum_bootOk : (injectChecksum s).bootOk = true := rfl
@[simp] theorem injectChecksum_outValid : (injectChecksum s).outValid = s.outValid := rfl
@[simp] theorem injectChecksum_region : (injectChecksum s).region = s.region := rfl
@[simp] theorem injectChecksum_errCode : (injectChecksum s).errCode = s.errCode := rfl
@[simp] theorem injectChecksum_errCmd : (injectChecksum s).errCmd = s.errCmd := rfl
@[simp] theorem injectChecksum_bootLen : (injectChecksum s).bootLen = s.bootLen := rfl
@[simp] theorem injectChecksum_progLen : (injectChecksum s).progLen = s.progLen := rfl
@[simp] theorem injectChecksum_bootBase : (injectChecksum s).bootBase = s.bootBase := rfl
@[simp] theorem injectChecksum_progBase : (injectChecksum s).progBase = s.progBase := rfl
@[simp] theorem injectChecksum_familyId : (injectChecksum s).familyId = s.familyId := rfl
@[simp] theorem injectChecksum_crcResult : (injectChecksum s).crcResult = crc32 (bootBody s) := rfl
@[simp] theorem injectChecksum_totalBlocks : (injectChecksum s).totalBlocks = s.totalBlocks := rfl
@[simp] theorem injectChecksum_blockIndex : (injectChecksum s).blockIndex = s.blockIndex := rfl
@[simp] theorem injectChecksum_regionPos : (injectChecksum s).regionPos = s.regionPos := rfl
@[simp] theorem injectChecksum_pendingCmd : (injectChecksum s).pendingCmd = s.pendingCmd := rfl
@[simp] theorem injectChecksum_mem : (injectChecksum s).mem = Memory.writeBytes s.mem 0x1FC (le32 (crc32 (bootBody s))) := rfl
@[simp] theorem injectChecksum_resetDraw : (injectChecksum s).resetDraw = s.resetDraw := rfl
@[simp] theorem injectChecksum_busyDraw : (injectChecksum s).busyDraw = s.busyDraw := rfl
@[simp] theorem injectChecksum_agenda : (injectChecksum s).agenda = s.agenda := rfl
@[simp] theorem injectChecksum_responses : (injectChecksum s).responses = s.responses := rfl

/-! ### beginPass -/

@[simp] theorem beginPass_bootEn : (beginPass s).bootEn = s.bootEn := rfl
@[simp] theorem beginPass_emptyBlk : (beginPass s).emptyBlk = s.emptyBlk := rfl
@[simp] theorem beginPass_busy : (beginPass s).busy = s.busy := rfl
@[simp] theorem beginPass_active : (beginPass s).active = decide (passBlocks s ≠ 0) := rfl
@[simp] theorem beginPass_done : (beginPass s).done = decide (passBlocks s = 0) := rfl
@[simp] theorem beginPass_err : (beginPass s).err = s.err := rfl
@[simp] theorem beginPass_bootOk : (beginPass s).bootOk = s.bootOk := rfl
@[simp] theorem beginPass_outValid : (beginPass s).outValid = false := rfl
@[simp] theorem beginPass_region : (beginPass s).region = if bootRegionBlocks s = 1 then .boot else .prog := rfl
@[simp] theorem beginPass_errCode : (beginPass s).errCode = s.errCode := rfl
@[simp] theorem beginPass_errCmd : (beginPass s).errCmd = s.errCmd := rfl
@[simp] theorem beginPass_bootLen : (beginPass s).bootLen = s.bootLen := rfl
@[simp] theorem beginPass_progLen : (beginPass s).progLen = s.progLen := rfl
@[simp] theorem beginPass_bootBase : (beginPass s).bootBase = s.bootBase := rfl
@[simp] theorem beginPass_progBase : (beginPass s).progBase = s.progBase := rfl
@[simp] theorem beginPass_familyId : (beginPass s).familyId = s.familyId := rfl
@[simp] theorem beginPass_crcResult : (beginPass s).crcResult = s.crcResult := rfl
@[simp] theorem beginPass_totalBlocks : (beginPass s).totalBlocks = BitVec.ofNat 32 (passBlocks s) := rfl
@[simp] theorem beginPass_blockIndex : (beginPass s).blockIndex = 0#32 := rfl
@[simp] theorem beginPass_regionPos : (beginPass s).regionPos = 0#32 := rfl
@[simp] theorem beginPass_pendingCmd : (beginPass s).pendingCmd = s.pendingCmd := rfl
@[simp] theorem beginPass_mem : (beginPass s).mem = s.mem := rfl
@[simp] theorem beginPass_resetDraw : (beginPass s).resetDraw = s.resetDraw := rfl
@[simp] theorem beginPass_busyDraw : (beginPass s).busyDraw = s.busyDraw := rfl
@[simp] theorem beginPass_agenda : (beginPass s).agenda = s.agenda := rfl
@[simp] theorem beginPass_responses : (beginPass s).responses = s.responses := rfl

/-! ### advance -/

@[simp] theorem advance_bootEn : (advance s).bootEn = s.bootEn := rfl
@[simp] theorem advance_emptyBlk : (advance s).emptyBlk = s.emptyBlk := rfl
@[simp] theorem advance_busy : (advance s).busy = s.busy := rfl
@[simp] theorem advance_active : (advance s).active = if s.blockIndex.toNat + 1 = s.totalBlocks.toNat then false else s.active := rfl
@[simp] theorem advance_done : (advance s).done = if s.blockIndex.toNat + 1 = s.totalBlocks.toNat then true else s.done := rfl
@[simp] theorem advance_err : (advance s).err = s.err := rfl
@[simp] theorem advance_bootOk : (advance s).bootOk = s.bootOk := rfl
@[simp] theorem advance_outValid : (advance s).outValid = true := rfl
@[simp] theorem advance_region : (advance s).region = .prog := rfl
@[simp] theorem advance_errCode : (advance s).errCode = s.errCode := rfl
@[simp] theorem advance_errCmd : (advance s).errCmd = s.errCmd := rfl
@[simp] theorem advance_bootLen : (advance s).bootLen = s.bootLen := rfl
@[simp] theorem advance_progLen : (advance s).progLen = s.progLen := rfl
@[simp] theorem advance_bootBase : (advance s).bootBase = s.bootBase := rfl
@[simp] theorem advance_progBase : (advance s).progBase = s.progBase := rfl
@[simp] theorem advance_familyId : (advance s).familyId = s.familyId := rfl
@[simp] theorem advance_crcResult : (advance s).crcResult = s.crcResult := rfl
@[simp] theorem advance_totalBlocks : (advance s).totalBlocks = s.totalBlocks := rfl
@[simp] theorem advance_blockIndex : (advance s).blockIndex = s.blockIndex + 1#32 := rfl
@[simp] theorem advance_pendingCmd : (advance s).pendingCmd = s.pendingCmd := rfl
@[simp] theorem advance_mem : (advance s).mem = s.mem := rfl
@[simp] theorem advance_resetDraw : (advance s).resetDraw = s.resetDraw := rfl
@[simp] theorem advance_busyDraw : (advance s).busyDraw = s.busyDraw := rfl
@[simp] theorem advance_agenda : (advance s).agenda = s.agenda := rfl
@[simp] theorem advance_responses : (advance s).responses = s.responses := rfl

/-! ### hardReset -/

@[simp] theorem hardReset_bootEn : (hardReset s).bootEn = State.reset.bootEn := rfl
@[simp] theorem hardReset_emptyBlk : (hardReset s).emptyBlk = State.reset.emptyBlk := rfl
@[simp] theorem hardReset_busy : (hardReset s).busy = State.reset.busy := rfl
@[simp] theorem hardReset_active : (hardReset s).active = State.reset.active := rfl
@[simp] theorem hardReset_done : (hardReset s).done = State.reset.done := rfl
@[simp] theorem hardReset_err : (hardReset s).err = State.reset.err := rfl
@[simp] theorem hardReset_bootOk : (hardReset s).bootOk = State.reset.bootOk := rfl
@[simp] theorem hardReset_outValid : (hardReset s).outValid = State.reset.outValid := rfl
@[simp] theorem hardReset_region : (hardReset s).region = State.reset.region := rfl
@[simp] theorem hardReset_errCode : (hardReset s).errCode = State.reset.errCode := rfl
@[simp] theorem hardReset_errCmd : (hardReset s).errCmd = State.reset.errCmd := rfl
@[simp] theorem hardReset_bootLen : (hardReset s).bootLen = State.reset.bootLen := rfl
@[simp] theorem hardReset_progLen : (hardReset s).progLen = State.reset.progLen := rfl
@[simp] theorem hardReset_bootBase : (hardReset s).bootBase = State.reset.bootBase := rfl
@[simp] theorem hardReset_progBase : (hardReset s).progBase = State.reset.progBase := rfl
@[simp] theorem hardReset_familyId : (hardReset s).familyId = State.reset.familyId := rfl
@[simp] theorem hardReset_crcResult : (hardReset s).crcResult = State.reset.crcResult := rfl
@[simp] theorem hardReset_totalBlocks : (hardReset s).totalBlocks = State.reset.totalBlocks := rfl
@[simp] theorem hardReset_blockIndex : (hardReset s).blockIndex = State.reset.blockIndex := rfl
@[simp] theorem hardReset_regionPos : (hardReset s).regionPos = State.reset.regionPos := rfl
@[simp] theorem hardReset_pendingCmd : (hardReset s).pendingCmd = State.reset.pendingCmd := rfl
@[simp] theorem hardReset_mem : (hardReset s).mem = State.reset.mem := rfl
@[simp] theorem hardReset_resetDraw : (hardReset s).resetDraw = s.resetDraw + 1 := rfl
@[simp] theorem hardReset_busyDraw : (hardReset s).busyDraw = s.busyDraw := rfl
@[simp] theorem hardReset_agenda : (hardReset s).agenda = s.agenda := rfl
@[simp] theorem hardReset_responses : (hardReset s).responses = s.responses := rfl

/-! ### Bytes: the operations that store nothing -/

@[simp] theorem byteAt_complete (a : Nat) : byteAt (complete s) a = byteAt s a := rfl
@[simp] theorem byteAt_raise (e : CommandError) (w : Word) (a : Nat) : byteAt (raise e w s) a = byteAt s a := rfl
@[simp] theorem byteAt_clearError (a : Nat) : byteAt (clearError s) a = byteAt s a := rfl
@[simp] theorem byteAt_clearPass (a : Nat) : byteAt (clearPass s) a = byteAt s a := rfl
@[simp] theorem byteAt_respond (r : BusResponse) (a : Nat) : byteAt (respond r s) a = byteAt s a := rfl
@[simp] theorem byteAt_checkChecksum (a : Nat) : byteAt (checkChecksum s) a = byteAt s a := rfl
@[simp] theorem byteAt_beginPass (a : Nat) : byteAt (beginPass s) a = byteAt s a := rfl
@[simp] theorem byteAt_advance (a : Nat) : byteAt (advance s) a = byteAt s a := rfl
@[simp] theorem byteAt_failedWith (c : Byte) (w : Word) (a : Nat) : byteAt (failedWith c w s) a = byteAt s a := rfl
@[simp] theorem bufBytes_complete (b : Buffer) (off n : Nat) :
    bufBytes b off n (complete s) = bufBytes b off n s := rfl
@[simp] theorem bufBytes_raise (e : CommandError) (w : Word) (b : Buffer) (off n : Nat) :
    bufBytes b off n (raise e w s) = bufBytes b off n s := rfl
@[simp] theorem bufBytes_clearError (b : Buffer) (off n : Nat) :
    bufBytes b off n (clearError s) = bufBytes b off n s := rfl
@[simp] theorem bufBytes_clearPass (b : Buffer) (off n : Nat) :
    bufBytes b off n (clearPass s) = bufBytes b off n s := rfl
@[simp] theorem bufBytes_respond (r : BusResponse) (b : Buffer) (off n : Nat) :
    bufBytes b off n (respond r s) = bufBytes b off n s := rfl
@[simp] theorem bufBytes_checkChecksum (b : Buffer) (off n : Nat) :
    bufBytes b off n (checkChecksum s) = bufBytes b off n s := rfl
@[simp] theorem bufBytes_beginPass (b : Buffer) (off n : Nat) :
    bufBytes b off n (beginPass s) = bufBytes b off n s := rfl
@[simp] theorem bufBytes_advance (b : Buffer) (off n : Nat) :
    bufBytes b off n (advance s) = bufBytes b off n s := rfl
@[simp] theorem bufBytes_failedWith (c : Byte) (w : Word) (b : Buffer) (off n : Nat) :
    bufBytes b off n (failedWith c w s) = bufBytes b off n s := rfl

/-! ### A change of the host's plan -/

/-- The block computes from its own state only: its bytes do not depend on the host's plan. -/
@[simp] theorem byteAt_agenda (a : Nat) (es : List Event) : byteAt { s with agenda := es } a = byteAt s a := rfl

@[simp] theorem bufBytes_agenda (b : Buffer) (off n : Nat) (es : List Event) :
    bufBytes b off n { s with agenda := es } = bufBytes b off n s := rfl

end Sys2Proof.Machine
end

