-- ==== Sys2Proof/Laws/Bytes.lean ====
section
/-! SUPPORT. Byte order and memory: what a stored byte sequence reads back as, that a store leaves every
other byte alone, and that it keeps the memory's canonical form. -/

namespace Sys2Proof.Machine

/-! ### Byte order -/

@[simp] theorem leBytes_length (n v : Nat) : (leBytes n v).length = n := by
  induction n generalizing v with
  | zero => rfl
  | succ n ih => simp [leBytes, ih]

@[simp] theorem le32_length (w : Word) : (le32 w).length = 4 := leBytes_length 4 _

/-- Reading back what was laid out in little-endian order, as far as the bytes reach. -/
theorem leValue_leBytes (n v : Nat) : leValue (leBytes n v) = v % 256 ^ n := by
  induction n generalizing v with
  | zero => simp [leBytes, leValue, Nat.mod_one]
  | succ n ih =>
    have hpow : 256 ^ (n + 1) = 256 * 256 ^ n := by rw [Nat.pow_succ, Nat.mul_comm]
    rw [leBytes, leValue, ih, BitVec.toNat_ofNat, hpow, Nat.mod_mul]

@[simp] theorem leValue_le32 (w : Word) : leValue (le32 w) = w.toNat := by
  rw [le32, leValue_leBytes]
  exact Nat.mod_eq_of_lt w.isLt

theorem leValue_append (xs ys : List Byte) :
    leValue (xs ++ ys) = leValue xs + 256 ^ xs.length * leValue ys := by
  induction xs with
  | nil => simp [leValue]
  | cons x xs ih => simp [leValue, ih, Nat.pow_succ]; ring

theorem leValue_lt (bs : List Byte) : leValue bs < 256 ^ bs.length := by
  induction bs with
  | nil => simp [leValue]
  | cons b bs ih =>
    have := b.isLt
    simp only [leValue, List.length_cons, Nat.pow_succ]
    omega

/-- Byte `k` of a laid-out word is bits `8k+7 .. 8k`. -/
theorem le32_getElem (w : Word) (k : Nat) (hk : k < 4) :
    (le32 w)[k]'(by simpa using hk) = w.extractLsb' (8 * k) 8 := by
  apply BitVec.eq_of_toNat_eq
  match k, hk with
  | 0, _ => simp [le32, leBytes, BitVec.extractLsb'_toNat]
  | 1, _ => simp [le32, leBytes, BitVec.extractLsb'_toNat, Nat.shiftRight_eq_div_pow]
  | 2, _ => simp [le32, leBytes, BitVec.extractLsb'_toNat, Nat.shiftRight_eq_div_pow, Nat.div_div_eq_div_mul]
  | 3, _ => simp [le32, leBytes, BitVec.extractLsb'_toNat, Nat.shiftRight_eq_div_pow, Nat.div_div_eq_div_mul]

/-! ### Memory -/

@[simp] theorem base_boot : Buffer.boot.base = 0x100 := rfl
@[simp] theorem base_data : Buffer.data.base = 0x200 := rfl
@[simp] theorem base_out : Buffer.out.base = 0x400 := rfl

theorem cell_append (m n : Memory) (x : Nat) :
    Memory.cell (m ++ n) x = (Memory.cell m x).or (Memory.cell n x) := by
  induction m with
  | nil => simp [Memory.cell]
  | cons c m ih =>
    by_cases h : c.1 = x <;> simp [Memory.cell, h, ih]

/-- Keeping the cells whose address satisfies a test keeps exactly those addresses' bytes. -/
theorem cell_filter (m : Memory) (p : Nat → Bool) (x : Nat) :
    Memory.cell (m.filter (fun c => p c.1)) x = if p x then Memory.cell m x else none := by
  induction m with
  | nil => simp [Memory.cell]
  | cons c m ih =>
    by_cases hx : c.1 = x
    · subst hx
      by_cases hc : p c.1
      · simp [Memory.cell, hc]
      · simpa [Memory.cell, hc] using ih
    · by_cases hc : p c.1 <;> simp [Memory.cell, hx, hc, ih]

theorem cell_cellsAt (a : Nat) (bs : List Byte) (x : Nat) :
    Memory.cell (cellsAt a bs) x = if a ≤ x then bs[x - a]? else none := by
  induction bs generalizing a with
  | nil => simp [cellsAt, Memory.cell]
  | cons b bs ih =>
    by_cases h : a = x
    · simp [cellsAt, Memory.cell, h]
    · rcases Nat.lt_or_ge x a with hlt | hge
      · simp [cellsAt, Memory.cell, h, ih, Nat.not_le.mpr hlt, Nat.not_le.mpr (Nat.lt_succ_of_lt hlt)]
      · have hx : x - a = (x - (a + 1)) + 1 := by omega
        simp [cellsAt, Memory.cell, h, ih, hge, show a + 1 ≤ x by omega, hx]

theorem cell_writeBytes (m : Memory) (a : Nat) (bs : List Byte) (x : Nat) :
    Memory.cell (Memory.writeBytes m a bs) x =
      if a ≤ x ∧ x < a + bs.length then bs[x - a]? else Memory.cell m x := by
  rw [Memory.writeBytes, cell_append, cell_append, cell_filter m (fun y => decide (y < a)),
    cell_filter m (fun y => decide (a + bs.length ≤ y)), cell_cellsAt]
  rcases Nat.lt_or_ge x a with h | h
  · have h1 : ¬a ≤ x := by omega
    have h2 : ¬a + bs.length ≤ x := by omega
    simp [h, h1, h2]
  · have h1 : ¬x < a := by omega
    by_cases h2 : x < a + bs.length
    · have h3 : x - a < bs.length := by omega
      have h4 : ¬a + bs.length ≤ x := by omega
      simp [h1, h, h2, h3, h4]
    · have h3 : bs.length ≤ x - a := by omega
      have h4 : a + bs.length ≤ x := by omega
      simp [h1, h, h2, h3, h4]

/-- A store reads back inside the stored bytes. -/
theorem byteAt_storeBytes_inside (b : Buffer) (off : Nat) (bs : List Byte) (s : State) (k : Nat)
    (hk : k < bs.length) : byteAt (storeBytes b off bs s) (b.base + off + k) = bs[k] := by
  have h : b.base + off ≤ b.base + off + k ∧ b.base + off + k < b.base + off + bs.length := by omega
  have h2 : b.base + off + k - (b.base + off) = k := by omega
  rw [byteAt, storeBytes_mem, cell_writeBytes, if_pos h, h2, List.getElem?_eq_getElem hk]
  rfl

/-- A store leaves every byte outside the stored bytes. -/
theorem byteAt_storeBytes_outside (b : Buffer) (off : Nat) (bs : List Byte) (s : State) (a : Nat)
    (ha : ¬(b.base + off ≤ a ∧ a < b.base + off + bs.length)) :
    byteAt (storeBytes b off bs s) a = byteAt s a := by
  rw [byteAt, storeBytes_mem, cell_writeBytes, if_neg ha]
  rfl

@[simp] theorem bufBytes_length (b : Buffer) (off n : Nat) (s : State) :
    (bufBytes b off n s).length = n := by simp [bufBytes]

@[simp] theorem bufBytes_getElem (b : Buffer) (off n : Nat) (s : State) (k : Nat)
    (hk : k < (bufBytes b off n s).length) : (bufBytes b off n s)[k] = byteAt s (b.base + off + k) := by
  simp [bufBytes]

theorem bufBytes_getElem? (b : Buffer) (off n : Nat) (s : State) (k : Nat) (hk : k < n) :
    (bufBytes b off n s)[k]? = some (byteAt s (b.base + off + k)) := by
  rw [List.getElem?_eq_getElem (by rwa [bufBytes_length]), bufBytes_getElem]

/-- Two sequences read the same, byte by byte. -/
theorem byteAt_of_bufBytes_eq (b : Buffer) (off n : Nat) (s t : State)
    (h : bufBytes b off n t = bufBytes b off n s) (k : Nat) (hk : k < n) :
    byteAt t (b.base + off + k) = byteAt s (b.base + off + k) := by
  have := congrArg (fun l => l[k]?) h
  simpa only [bufBytes_getElem? b off n _ k hk, Option.some.injEq] using this

/-- Two states with the same bytes in a range read the same sequence. -/
theorem bufBytes_congr (b : Buffer) (off n : Nat) (s t : State)
    (h : ∀ k, k < n → byteAt t (b.base + off + k) = byteAt s (b.base + off + k)) :
    bufBytes b off n t = bufBytes b off n s := by
  apply List.map_congr_left
  intro k hk
  exact h k (List.mem_range.mp hk)

/-- A store's own range reads back the stored sequence. -/
theorem bufBytes_storeBytes_self (b : Buffer) (off : Nat) (bs : List Byte) (s : State) :
    bufBytes b off bs.length (storeBytes b off bs s) = bs := by
  apply List.ext_getElem (by simp)
  intro k h1 h2
  rw [bufBytes_getElem, byteAt_storeBytes_inside b off bs s k h2]

/-- A store leaves a disjoint range. -/
theorem bufBytes_storeBytes_disjoint (b c : Buffer) (off off' n : Nat) (bs : List Byte) (s : State)
    (h : b.base + off + bs.length ≤ c.base + off' ∨ c.base + off' + n ≤ b.base + off) :
    bufBytes c off' n (storeBytes b off bs s) = bufBytes c off' n s := by
  apply bufBytes_congr
  intro k hk
  apply byteAt_storeBytes_outside
  omega

/-- A sub-range of a buffer's bytes. -/
theorem bufBytes_drop_take (b : Buffer) (off n i m : Nat) (s : State) (h : i + m ≤ n) :
    ((bufBytes b off n s).drop i).take m = bufBytes b (off + i) m s := by
  apply List.ext_getElem (by simp; omega)
  intro k h1 h2
  simp only [List.getElem_take, List.getElem_drop, bufBytes_getElem]
  congr 1
  omega

/-! ### The canonical form -/

theorem mem_cellsAt (a : Nat) (bs : List Byte) (c : Host.Cell) (h : c ∈ cellsAt a bs) :
    a ≤ c.1 ∧ c.1 < a + bs.length := by
  induction bs generalizing a with
  | nil => simp [cellsAt] at h
  | cons b bs ih =>
    rcases List.mem_cons.mp h with rfl | h
    · simp
    · have := ih _ h
      simp only [List.length_cons]
      omega

theorem cellsAt_sorted (a : Nat) (bs : List Byte) :
    (cellsAt a bs).Pairwise (fun c d => c.1 < d.1) := by
  induction bs generalizing a with
  | nil => simp [cellsAt]
  | cons b bs ih =>
    refine List.pairwise_cons.mpr ⟨?_, ih (a + 1)⟩
    intro c hc
    have := mem_cellsAt _ _ _ hc
    simp only
    omega

/-- A store within buffer offsets keeps the canonical form. -/
theorem writeBytes_wf (m : Memory) (a : Nat) (bs : List Byte) (hm : Memory.wf m)
    (hr : ∀ k, k < bs.length → isBufferOffset (a + k) = true) :
    Memory.wf (Memory.writeBytes m a bs) := by
  obtain ⟨hs, hw⟩ := hm
  constructor
  · refine List.pairwise_append.mpr ⟨List.pairwise_append.mpr ⟨hs.filter _, cellsAt_sorted a bs, ?_⟩,
      hs.filter _, ?_⟩
    · intro c hc d hd
      have h1 := (List.mem_filter.mp hc).2
      have h2 := mem_cellsAt _ _ _ hd
      simp only [decide_eq_true_eq] at h1
      omega
    · intro c hc d hd
      have h2 := (List.mem_filter.mp hd).2
      simp only [decide_eq_true_eq] at h2
      rcases List.mem_append.mp hc with h | h
      · have h1 := (List.mem_filter.mp h).2
        simp only [decide_eq_true_eq] at h1
        omega
      · have h1 := mem_cellsAt _ _ _ h
        omega
  · intro c hc
    rcases List.mem_append.mp hc with h | h
    · rcases List.mem_append.mp h with h | h
      · exact hw c (List.mem_filter.mp h).1
      · have h1 := mem_cellsAt _ _ _ h
        have := hr (c.1 - a) (by omega)
        rwa [show a + (c.1 - a) = c.1 by omega] at this
    · exact hw c (List.mem_filter.mp h).1

/-- A store within a buffer keeps the canonical form. -/
theorem storeBytes_wf (b : Buffer) (off : Nat) (bs : List Byte) (s : State)
    (hm : Memory.wf s.mem) (hr : off + bs.length ≤ b.size) : Memory.wf (storeBytes b off bs s).mem := by
  refine writeBytes_wf _ _ _ hm ?_
  intro k hk
  unfold isBufferOffset
  apply decide_eq_true
  cases b <;> simp only [Buffer.base, Buffer.size] at * <;> omega

theorem memWrite_wf (b : Buffer) (off n v : Nat) (s : State)
    (hm : Memory.wf s.mem) (hr : off + n ≤ b.size) : Memory.wf (memWrite b off n v s).mem :=
  storeBytes_wf b off _ s hm (by simpa using hr)

theorem filter_lt_cellsAt (a : Nat) (bs : List Byte) :
    (cellsAt a bs).filter (fun c => decide (c.1 < a)) = [] := by
  apply List.filter_eq_nil_iff.mpr
  intro c hc
  have := mem_cellsAt _ _ _ hc
  simp only [decide_eq_true_eq]
  omega

theorem filter_ge_cellsAt (a : Nat) (bs : List Byte) :
    (cellsAt a bs).filter (fun c => decide (a + bs.length ≤ c.1)) = [] := by
  apply List.filter_eq_nil_iff.mpr
  intro c hc
  have := mem_cellsAt _ _ _ hc
  simp only [decide_eq_true_eq]
  omega

/-- Storing over the same range again replaces the first store, as data. -/
theorem writeBytes_writeBytes (m : Memory) (a : Nat) (bs cs : List Byte) (h : bs.length = cs.length) :
    Memory.writeBytes (Memory.writeBytes m a bs) a cs = Memory.writeBytes m a cs := by
  have h1 : ((m.filter (fun c => decide (a + bs.length ≤ c.1))).filter (fun c => decide (c.1 < a))) = [] := by
    apply List.filter_eq_nil_iff.mpr
    intro c hc
    have := (List.mem_filter.mp hc).2
    simp only [decide_eq_true_eq] at *
    omega
  have h2 : ((m.filter (fun c => decide (c.1 < a))).filter (fun c => decide (a + bs.length ≤ c.1))) = [] := by
    apply List.filter_eq_nil_iff.mpr
    intro c hc
    have := (List.mem_filter.mp hc).2
    simp only [decide_eq_true_eq] at *
    omega
  simp only [Memory.writeBytes, List.filter_append, filter_lt_cellsAt, ← h, filter_ge_cellsAt, h1, h2]
  simp only [List.append_nil, List.nil_append, List.filter_filter, Bool.and_self]

end Sys2Proof.Machine
end

