-- ==== Sys2Proof/Laws/Bus.lean ====
section
/-! SUPPORT. What a bus transaction can do, said once: the ERROR response, an accepted read, or an accepted
write under the conditions of spec/20_memory.md R58; and the address map of R52 as sets of offsets. -/

namespace Sys2Proof.Machine

/-! ### The address map -/

/-- The facts about one offset that the lemmas below read off. -/
def targetFacts (off : Offset) : Bool :=
  off.toNat % 4 != 0 ||
  match busTarget off with
  | none => !mappedOffset off.toNat
  | some t =>
    mappedOffset off.toNat && (decide (t.access = .ro) == readOnlyOffset off.toNat)
      && (decide (t.access = .rwLocked) == lockedOffset off.toNat)
      && match t with
        | .reg r => registerAt off.toNat == some r
        | .word b k => decide (b.base + 4 * k = off.toNat ∧ 4 * k + 4 ≤ b.size)

/-- The map agrees with R52's sets at each of the 4096 offsets. -/
theorem targetFacts_all : ∀ off : Offset, targetFacts off = true := by decide +kernel

theorem busTarget_none_iff (off : Offset) (h : off.toNat % 4 = 0) :
    busTarget off = none ↔ mappedOffset off.toNat = false := by
  have := targetFacts_all off
  unfold targetFacts at this
  cases ht : busTarget off <;> simp_all

theorem busTarget_readOnly (off : Offset) (t : Target) (h : off.toNat % 4 = 0)
    (ht : busTarget off = some t) : t.access = .ro ↔ readOnlyOffset off.toNat = true := by
  have := targetFacts_all off
  simp only [targetFacts, h, ht, bne_self_eq_false, Bool.false_or, Bool.and_eq_true, beq_iff_eq] at this
  rw [← this.1.1.2]
  simp

theorem busTarget_locked (off : Offset) (t : Target) (h : off.toNat % 4 = 0)
    (ht : busTarget off = some t) : t.access = .rwLocked ↔ lockedOffset off.toNat = true := by
  have := targetFacts_all off
  simp only [targetFacts, h, ht, bne_self_eq_false, Bool.false_or, Bool.and_eq_true, beq_iff_eq] at this
  rw [← this.1.2]
  simp

/-- A window word lies in its buffer, at its offset. -/
theorem busTarget_word (off : Offset) (b : Buffer) (k : Nat) (h : off.toNat % 4 = 0)
    (ht : busTarget off = some (.word b k)) : b.base + 4 * k = off.toNat ∧ 4 * k + 4 ≤ b.size := by
  have := targetFacts_all off
  simp only [targetFacts, h, ht, bne_self_eq_false, Bool.false_or, Bool.and_eq_true] at this
  simpa using this.2

/-! ### The checks of R58 -/

theorem busCheck_read_ok (off : Offset) (s : State) (t : Target) :
    busCheck false off s = .ok t ↔ off.toNat % 4 = 0 ∧ busTarget off = some t := by
  unfold busCheck
  by_cases h : off.toNat % 4 = 0
  · cases ht : busTarget off <;> simp [h]
  · simp [h]

theorem busCheck_write_ok (off : Offset) (s : State) (t : Target) :
    busCheck true off s = .ok t ↔ off.toNat % 4 = 0 ∧ busTarget off = some t ∧ s.busy = false ∧
      t.access ≠ .ro ∧ (t.access = .rwLocked → s.active = false) := by
  unfold busCheck
  by_cases h : off.toNat % 4 = 0
  · cases ht : busTarget off with
    | none => simp [h]
    | some u =>
      by_cases hb : s.busy = true
      · simp [h, hb]
      · by_cases hr : u.access = .ro
        · simp only [h, hb, hr]
          simp
          rintro rfl
          simp_all
        · by_cases hl : u.access = .rwLocked <;> by_cases ha : s.active = true <;>
            simp [h, hb, hr, hl, ha] <;> rintro rfl <;> simp_all
  · simp [h]

/-! ### The transaction -/

/-- A transaction is an ERROR that changes nothing, an accepted read, or an accepted write. -/
theorem busTransaction_cases (x : BusTxn) (s : State) :
    busTransaction x s = respond .error s ∨
    (∃ off t, x = .read off ∧ busCheck false off s = .ok t ∧ busTransaction x s = acceptRead t s) ∨
    (∃ off w t, x = .write off w ∧ busCheck true off s = .ok t ∧
      busTransaction x s = acceptWrite t w s) := by
  cases x with
  | read off =>
    cases h : busCheck false off s with
    | error e => exact .inl (by simp [busTransaction, busRead, h])
    | ok t => exact .inr (.inl ⟨off, t, rfl, h, by simp [busTransaction, busRead, h]⟩)
  | write off w =>
    cases h : busCheck true off s with
    | error e => exact .inl (by simp [busTransaction, busWrite, h])
    | ok t => exact .inr (.inr ⟨off, w, t, rfl, h, by simp [busTransaction, busWrite, h]⟩)
  | narrow off => exact .inl rfl

/-- An accepted read changes only the response log and the count of draws. -/
theorem acceptRead_cases (t : Target) (s : State) :
    (s.busy = true ∧ t ≠ .reg .status ∧ acceptRead t s =
      respond (.okayRead (Config.busyReadDraw s.busyDraw)) { s with busyDraw := s.busyDraw + 1 }) ∨
    ((s.busy = false ∨ t = .reg .status) ∧
      acceptRead t s = respond (.okayRead (readTarget t s)) s) := by
  unfold acceptRead
  by_cases hb : s.busy = true <;> by_cases ht : t = .reg .status <;> simp [hb, ht]

/-- A transaction leaves every byte but those of the word an accepted write names. -/
theorem byteAt_busTransaction_outside (x : BusTxn) (s : State) (a : Nat)
    (h : ∀ off w u, x = .write off w → busCheck true off s = .ok u →
      ¬(off.toNat ≤ a ∧ a < off.toNat + 4)) :
    byteAt (busTransaction x s) a = byteAt s a := by
  rcases busTransaction_cases x s with hx | ⟨off, t, _, _, hx⟩ | ⟨off, w, t, hw, hc, hx⟩ <;> rw [hx]
  · rfl
  · rcases acceptRead_cases t s with ⟨_, _, ht⟩ | ⟨_, ht⟩ <;> rw [ht] <;> rfl
  · obtain ⟨h4, ht, -⟩ := (busCheck_write_ok _ _ _).mp hc
    cases t with
    | reg r => cases r <;> rfl
    | word b k =>
      have hword : byteAt (storeBytes b (4 * k) (le32 w) s) a = byteAt s a := by
        apply byteAt_storeBytes_outside
        rw [(busTarget_word off b k h4 ht).1, le32_length]
        exact h off w _ hw hc
      cases b with
      | boot => exact hword
      | data => exact hword
      | out => rfl

/-- A word read back from where it was written. -/
theorem memRead_memWrite_word (b : Buffer) (off : Nat) (w : Word) (s : State) :
    memRead b off 4 (memWrite b off 4 w.toNat s) = w.toNat := by
  rw [memRead, memWrite]
  have := bufBytes_storeBytes_self b off (le32 w) s
  rw [le32_length] at this
  rw [show leBytes 4 w.toNat = le32 w from rfl, this, leValue_le32]

end Sys2Proof.Machine
end

