-- ==== Sys2Proof/Laws/Commands.lean ====
section
/-! SUPPORT. What each command can do, said once: a step of exec is the skip, a raise, or the command's
own writes, under the conditions of its rule. Later proofs cite these and do not unfold the meanings. -/

namespace Sys2Proof.Machine

/-! ### The frame of an engine step -/

theorem runCommand_of_err (body : State → State) (s : State) (h : s.err = true) :
    runCommand body s = complete s := by simp [runCommand, h]

theorem runCommand_of_ok (body : State → State) (s : State) (h : s.err = false) :
    runCommand body s = complete (body s) := by simp [runCommand, h]

/-- A raise, completed, is the failure of R140. -/
theorem complete_raise (e : CommandError) (w : Word) (s : State) :
    complete (raise e w s) = failedWith e.code w s := rfl

@[simp] theorem bootLenOk_iff (s : State) : bootLenOk s = true ↔ s.bootLen = 256#32 := by
  simp [bootLenOk, Config.bootImageSize]

@[simp] theorem bootLenOk_false_iff (s : State) : bootLenOk s = false ↔ s.bootLen ≠ 256#32 := by
  simp [bootLenOk, Config.bootImageSize]

/-! ### The five words (R71) -/

theorem encode_inject : encode .inject = 1#32 := rfl
theorem encode_verify : encode .verify = 2#32 := rfl
theorem encode_start : encode .start = 3#32 := rfl
theorem encode_emit : encode .emit = 4#32 := rfl
theorem encode_clear : encode .clear = 5#32 := rfl

/-! ### Block counts (R100, R109) -/

theorem bootRegionBlocks_eq (s : State) : bootRegionBlocks s = s.bootEn.toNat := by
  cases h : s.bootEn <;> simp [bootRegionBlocks, h]

theorem bootRegionBlocks_eq_one (s : State) : bootRegionBlocks s = 1 ↔ s.bootEn = true := by
  simp [bootRegionBlocks]

theorem progRegionBlocks_zero (s : State) (h : s.progLen.toNat = 0) :
    progRegionBlocks s = s.emptyBlk.toNat := by
  cases he : s.emptyBlk <;> simp [progRegionBlocks, h, he]

theorem progRegionBlocks_pos (s : State) (h : 0 < s.progLen.toNat) :
    progRegionBlocks s = (s.progLen.toNat + 255) / 256 := by
  simp [progRegionBlocks, Nat.pos_iff_ne_zero.mp h, ceilDiv, Config.dataChunkSize]

/-- `PROG_LEN` has 32 bits, so the program region has at most 2^24 blocks. -/
theorem progRegionBlocks_le (s : State) : progRegionBlocks s ≤ 2 ^ 24 := by
  rcases Nat.eq_zero_or_pos s.progLen.toNat with h | h
  · rw [progRegionBlocks_zero s h]
    cases s.emptyBlk <;> decide
  · rw [progRegionBlocks_pos s h]
    have := s.progLen.isLt
    omega

theorem passBlocks_le (s : State) : passBlocks s ≤ 2 ^ 24 + 1 := by
  have h1 := progRegionBlocks_le s
  have h2 : bootRegionBlocks s ≤ 1 := by
    rw [bootRegionBlocks_eq]
    cases s.bootEn <;> decide
  unfold passBlocks
  omega

/-! ### One lemma per command -/

/-- INJECT: skipped, refused for an active pass or a wrong length, or the checksum's writes. -/
theorem exec_inject_eq (s : State) : exec .inject s = .next (
    if s.err then complete s
    else if s.active then failedWith 5#8 1#32 s
    else if s.bootLen = 256#32 then complete (injectChecksum s)
    else failedWith 1#8 1#32 s) := by
  by_cases he : s.err <;> by_cases ha : s.active <;> by_cases hl : s.bootLen = 256#32 <;>
    simp [exec, execInject, runCommand, inject, he, ha, hl, complete_raise, CommandError.code, encode_inject]

/-- VERIFY: skipped, refused for a wrong length, or the check's writes. -/
theorem exec_verify_eq (s : State) : exec .verify s = .next (
    if s.err then complete s
    else if s.bootLen = 256#32 then complete (checkChecksum s)
    else failedWith 1#8 2#32 s) := by
  by_cases he : s.err <;> by_cases hl : s.bootLen = 256#32 <;>
    simp [exec, execVerify, runCommand, verify, he, hl, complete_raise, CommandError.code, encode_verify]

/-- START's configuration passes every check that can fail (R104). -/
def startAccepted (s : State) : Prop :=
  (s.bootEn = true → s.bootLen = 256#32 ∧ s.bootOk = true ∧ s.bootBase.toNat + 255 ≤ 0xFFFFFFFF) ∧
  (0 < s.progLen.toNat → s.progBase.toNat + s.progLen.toNat - 1 ≤ 0xFFFFFFFF)

/-- START that nothing refuses. -/
theorem exec_start_begin (s : State) (he : s.err = false) (ha : s.active = false)
    (h : startAccepted s) : exec .start s = .next (complete (beginPass s)) := by
  obtain ⟨hb, hp⟩ := h
  have h1 : ¬passBlocks s > 0xFFFFFFFF := by have := passBlocks_le s; omega
  have h2 : bootRegionOverflows s = false := by
    simp only [bootRegionOverflows, decide_eq_false_iff_not, bootRegionBlocks_eq_one]
    rintro ⟨hB, h⟩
    have := (hb hB).2.2
    omega
  have h3 : progRegionOverflows s = false := by
    simp only [progRegionOverflows, decide_eq_false_iff_not]
    rintro ⟨hP, h⟩
    have := hp hP
    omega
  have h4 : (s.bootEn && !bootLenOk s) = false := by
    by_cases hB : s.bootEn = true
    · simp [hB, (hb hB).1, bootLenOk]
    · simp [hB]
  have h5 : (s.bootEn && !s.bootOk) = false := by
    by_cases hB : s.bootEn = true
    · simp [hB, (hb hB).2.1]
    · simp [hB]
  simp [exec, execStart, runCommand, start, he, ha, h1, h2, h3, h4, h5]

/-- START: skipped, refused with one of the codes 5, 1 and 6, or begun. -/
theorem exec_start_cases (s : State) :
    (s.err = true ∧ exec .start s = .next (complete s)) ∨
    (s.err = false ∧ ∃ c, (c = 1#8 ∨ c = 5#8 ∨ c = 6#8) ∧ exec .start s = .next (failedWith c 3#32 s)) ∨
    (s.err = false ∧ s.active = false ∧ startAccepted s ∧
      exec .start s = .next (complete (beginPass s))) := by
  by_cases he : s.err = true
  · exact .inl ⟨he, by simp [exec, execStart, runCommand, he]⟩
  have he' : s.err = false := by simpa using he
  have h1 : ¬passBlocks s > 0xFFFFFFFF := by have := passBlocks_le s; omega
  by_cases ha : s.active = true
  · exact .inr (.inl ⟨he', 5#8, by simp, by
      simp [exec, execStart, runCommand, start, he', ha, encode_start, complete_raise, CommandError.code]⟩)
  by_cases h2 : (s.bootEn && !bootLenOk s) = true
  · exact .inr (.inl ⟨he', 1#8, by simp, by
      simp only [exec, execStart, runCommand, start, he', ha, h2, encode_start, complete_raise, CommandError.code,
        if_true, if_false, Bool.false_eq_true]⟩)
  by_cases h3 : (s.bootEn && !s.bootOk) = true
  · exact .inr (.inl ⟨he', 5#8, by simp, by
      simp only [exec, execStart, runCommand, start, he', ha, h2, h3, encode_start, complete_raise,
        CommandError.code, if_true, if_false, Bool.false_eq_true]⟩)
  by_cases h4 : bootRegionOverflows s = true
  · exact .inr (.inl ⟨he', 6#8, by simp, by
      simp only [exec, execStart, runCommand, start, he', ha, h2, h3, h1, h4, encode_start, complete_raise,
        CommandError.code, if_true, if_false, Bool.false_eq_true]⟩)
  by_cases h5 : progRegionOverflows s = true
  · exact .inr (.inl ⟨he', 6#8, by simp, by
      simp only [exec, execStart, runCommand, start, he', ha, h2, h3, h1, h4, h5, encode_start, complete_raise,
        CommandError.code, if_true, if_false, Bool.false_eq_true]⟩)
  refine .inr (.inr ⟨he', by simpa using ha, ⟨?_, ?_⟩, ?_⟩)
  · intro hB
    simp only [hB, Bool.true_and, Bool.not_eq_true', Bool.not_eq_false, bootLenOk_iff] at h2 h3
    refine ⟨h2, h3, ?_⟩
    simp only [bootRegionOverflows, bootRegionBlocks_eq_one, hB, true_and, decide_eq_true_eq] at h4
    omega
  · intro hP
    simp only [progRegionOverflows, decide_eq_true_eq] at h5
    omega
  · simp only [exec, execStart, runCommand, start, he', ha, h2, h3, h1, h4, h5,
      if_false, Bool.false_eq_true]

/-- EMIT: skipped, refused without an active pass, or the next block's writes. -/
theorem exec_emit_eq (s : State) : exec .emit s = .next (
    if s.err then complete s
    else if s.active then complete (storeBytes .out 0 (nextBlock s) (advance s))
    else failedWith 5#8 4#32 s) := by
  by_cases he : s.err <;> by_cases ha : s.active <;>
    simp [exec, execEmit, runCommand, emit, he, ha, complete_raise, CommandError.code, encode_emit]

/-- CLEAR, always. -/
theorem exec_clear_eq (s : State) : exec .clear s = .next (complete (clearPass (clearError s))) := rfl

/-! ### Frames of the success writes -/

/-- INJECT's writes but for memory. -/
theorem injectChecksum_frame (s : State) : { injectChecksum s with mem := s.mem } =
    { s with crcResult := crc32 (bootBody s), bootOk := true } := by
  simp only [injectChecksum, memWrite, storeBytes]

theorem byteAt_injectChecksum_outside (s : State) (a : Nat) (h : ¬(0x1FC ≤ a ∧ a < 0x200)) :
    byteAt (injectChecksum s) a = byteAt s a :=
  byteAt_storeBytes_outside .boot 252 (le32 (crc32 (bootBody s))) s a (by simpa using h)

/-- The stored field after INJECT. -/
theorem bufBytes_injectChecksum_field (s : State) :
    bufBytes .boot 252 4 (injectChecksum s) = le32 (crc32 (bootBody s)) :=
  bufBytes_storeBytes_self .boot 252 (le32 (crc32 (bootBody s))) s

/-- INJECT leaves the bytes the checksum covers. -/
theorem bufBytes_injectChecksum_body (s : State) :
    bufBytes .boot 0 252 (injectChecksum s) = bufBytes .boot 0 252 s := by
  apply bufBytes_congr
  intro k hk
  apply byteAt_injectChecksum_outside
  simp only [base_boot]
  omega

/-- EMIT's writes but for memory. -/
theorem storeBytes_frame (b : Buffer) (off : Nat) (bs : List Byte) (s : State) :
    { storeBytes b off bs s with mem := s.mem } = s := rfl

/-! ### The record (R74, R75) -/

theorem chunkLen_le (s : State) : chunkLen s ≤ 256 := by
  unfold chunkLen
  cases s.region
  · exact Nat.le_refl _
  · exact Nat.min_le_left _ _

@[simp] theorem chunkData_length (s : State) : (chunkData s).length = chunkLen s := by
  cases h : s.region <;> simp [chunkData, chunkLen, bootImage, h]

theorem serialize_length (addr : Word) (len : Nat) (i total fam : Word) (data : List Byte)
    (hd : data.length = len) (hl : len ≤ 476) :
    (serialize addr len i total fam data).length = 512 := by
  simp [serialize, zeros, hd, Config.uf2DataCapacity]
  omega

/-- A record is 512 bytes whatever its payload (R101). -/
@[simp] theorem nextBlock_length (s : State) : (nextBlock s).length = 512 :=
  serialize_length _ _ _ _ _ _ (chunkData_length s) (Nat.le_trans (chunkLen_le s) (by decide))

end Sys2Proof.Machine
end

