-- ==== Sys2Proof/Laws/Crc.lean ====
section
/-! SUPPORT. The CRC's inner loop is linear over exclusive or, and is a plain shift while no bit reaches
the top (spec/40_crc_injector.md R90). -/

namespace Sys2Proof.Machine

/-- One iteration of R90's inner loop, as one expression. -/
theorem crcBits_succ (n : Nat) (c : Word) :
    crcBits (n + 1) c = crcBits n ((c <<< 1) ^^^ (if c.msb then Config.crcPoly else 0#32)) := by
  by_cases h : c.msb <;> simp [crcBits, h]

/-- The two feedback terms of an exclusive or combine. -/
theorem crcFeedback_xor (p q : Bool) :
    (if (p ^^ q) = true then Config.crcPoly else 0#32)
      = (if p = true then Config.crcPoly else 0#32) ^^^ (if q = true then Config.crcPoly else 0#32) := by
  cases p <;> cases q <;> simp

theorem crcBits_xor (n : Nat) (x y : Word) :
    crcBits n (x ^^^ y) = crcBits n x ^^^ crcBits n y := by
  induction n generalizing x y with
  | zero => rfl
  | succ n ih =>
    rw [crcBits_succ, crcBits_succ, crcBits_succ, ← ih, BitVec.msb_xor, crcFeedback_xor,
      BitVec.shiftLeft_xor_distrib]
    congr 1
    ac_rfl

/-- While the set bits stay below the top, the loop only shifts. -/
theorem crcBits_shift (n : Nat) (c : Word) (hn : n ≤ 32) (h : c.toNat < 2 ^ (32 - n)) :
    crcBits n c = c <<< n := by
  induction n generalizing c with
  | zero => simp [crcBits]
  | succ n ih =>
    have hpow : 2 ^ (32 - n) = 2 * 2 ^ (32 - (n + 1)) := by
      rw [← Nat.pow_succ']
      congr 1
      omega
    have hle : 2 ^ (32 - (n + 1)) ≤ 2 ^ 31 := Nat.pow_le_pow_right (by decide) (by omega)
    have hmsb : c.msb = false := by
      rw [BitVec.msb_eq_false_iff_two_mul_lt]
      omega
    have hsh : (c <<< 1).toNat = 2 * c.toNat := by
      rw [BitVec.toNat_shiftLeft, Nat.shiftLeft_eq]
      omega
    rw [crcBits, hmsb]
    simp only [Bool.false_eq_true, if_false]
    rw [ih (c <<< 1) (by omega) (by omega), ← BitVec.shiftLeft_add, Nat.add_comm]

end Sys2Proof.Machine
end

