-- ==== Sys2Proof/Laws/PerInstr.lean ====
section
/-! SUPPORT. Statements made of every command, one lemma per constructor. -/

namespace Sys2Proof.Laws.RoundTrip

/-- A command's word is legal and decodes back to the command, as the bits of its table row too
(R71, R72). -/
def Statement (i : Instr) : Prop :=
  i.wf = true ∧ commandLegal (encode i) = true ∧ decode (encode i) = .command i ∧
    decodeTableWord 32 (encode i).toNat = some i

theorem inject : Statement .inject := by unfold Statement; decide
theorem verify : Statement .verify := by unfold Statement; decide
theorem start : Statement .start := by unfold Statement; decide
theorem emit : Statement .emit := by unfold Statement; decide
theorem clear : Statement .clear := by unfold Statement; decide

end Sys2Proof.Laws.RoundTrip
end

