-- ==== Sys2Proof/Laws/Record.lean ====
section
/-! SUPPORT. The fields of the record EMIT writes, as they stand in OUT_BUF (spec/30_encoding.md R74, R75;
spec/41_uf2_encoder.md R101). -/

namespace Sys2Proof.Machine

/-! ### Fields of a byte sequence -/

theorem recordField_skip (off : Nat) (xs ys : List Byte) (h : xs.length ≤ off) :
    recordField off (xs ++ ys) = recordField (off - xs.length) ys := by
  simp [recordField, List.drop_append, List.drop_eq_nil_of_le h]

theorem recordField_here (w : Word) (ys : List Byte) : recordField 0 (le32 w ++ ys) = w.toNat := by
  rw [recordField, List.drop_zero, List.take_left' (le32_length w), leValue_le32]

section Fields

variable (addr : Word) (len : Nat) (i total fam : Word) (data : List Byte)

/-- The record with its nine parts in a chain, the header words first. -/
theorem serialize_chain : serialize addr len i total fam data =
    le32 Config.uf2MagicStart0 ++ (le32 Config.uf2MagicStart1 ++ (le32 Config.uf2Flags ++
      (le32 addr ++ (le32 (BitVec.ofNat 32 len) ++ (le32 i ++ (le32 total ++ (le32 fam ++
        (data ++ (zeros (476 - len) ++ le32 Config.uf2MagicEnd))))))))) := by
  simp only [serialize, List.append_assoc, Config.uf2DataCapacity]

theorem serialize_magic0 : recordField 0 (serialize addr len i total fam data) = 0x0A324655 := by
  rw [serialize_chain, recordField_here]
  rfl

theorem serialize_magic1 : recordField 4 (serialize addr len i total fam data) = 0x9E5D5157 := by
  rw [serialize_chain, recordField_skip _ _ _ (by simp), le32_length, recordField_here]
  rfl

theorem serialize_flags : recordField 8 (serialize addr len i total fam data) = 0x00002000 := by
  rw [serialize_chain]
  iterate 2 rw [recordField_skip _ _ _ (by simp), le32_length]
  rw [recordField_here]
  rfl

theorem serialize_address : recordField 12 (serialize addr len i total fam data) = addr.toNat := by
  rw [serialize_chain]
  iterate 3 rw [recordField_skip _ _ _ (by simp), le32_length]
  rw [recordField_here]

theorem serialize_payloadLength (h : len ≤ 476) :
    recordField 16 (serialize addr len i total fam data) = len := by
  rw [serialize_chain]
  iterate 4 rw [recordField_skip _ _ _ (by simp), le32_length]
  rw [recordField_here, BitVec.toNat_ofNat]
  omega

theorem serialize_blockIndex : recordField 20 (serialize addr len i total fam data) = i.toNat := by
  rw [serialize_chain]
  iterate 5 rw [recordField_skip _ _ _ (by simp), le32_length]
  rw [recordField_here]

theorem serialize_totalBlocks : recordField 24 (serialize addr len i total fam data) = total.toNat := by
  rw [serialize_chain]
  iterate 6 rw [recordField_skip _ _ _ (by simp), le32_length]
  rw [recordField_here]

theorem serialize_familyId : recordField 28 (serialize addr len i total fam data) = fam.toNat := by
  rw [serialize_chain]
  iterate 7 rw [recordField_skip _ _ _ (by simp), le32_length]
  rw [recordField_here]

/-- What follows the 32-byte header. -/
theorem serialize_drop32 : (serialize addr len i total fam data).drop 32 =
    data ++ (zeros (476 - len) ++ le32 Config.uf2MagicEnd) := by
  have key : serialize addr len i total fam data =
      (le32 Config.uf2MagicStart0 ++ le32 Config.uf2MagicStart1 ++ le32 Config.uf2Flags ++ le32 addr ++
        le32 (BitVec.ofNat 32 len) ++ le32 i ++ le32 total ++ le32 fam) ++
      (data ++ (zeros (476 - len) ++ le32 Config.uf2MagicEnd)) := by
    simp only [serialize, List.append_assoc, Config.uf2DataCapacity]
  rw [key]
  exact List.drop_left' (by simp only [List.length_append, le32_length])

theorem serialize_magicEnd (hd : data.length = len) (h : len ≤ 476) :
    recordField 508 (serialize addr len i total fam data) = 0x0AB16F30 := by
  have h2 : (508 - 32 - len : Nat) = 476 - len := by omega
  have h1 : recordField 508 (serialize addr len i total fam data) =
      recordField (508 - 32) ((serialize addr len i total fam data).drop 32) := by
    simp [recordField, List.drop_drop]
  rw [h1, serialize_drop32, recordField_skip _ _ _ (by omega), hd, h2,
    recordField_skip _ _ _ (by simp [zeros])]
  simp only [zeros, List.length_replicate, Nat.sub_self]
  rw [show le32 Config.uf2MagicEnd = le32 Config.uf2MagicEnd ++ [] by simp, recordField_here]
  rfl

theorem serialize_chunk (hd : data.length = len) :
    ((serialize addr len i total fam data).drop 32).take len = data := by
  rw [serialize_drop32, List.take_left' hd]

theorem serialize_padding (hd : data.length = len) (k : Nat) (h1 : 32 + len ≤ k) (h2 : k < 508) :
    (serialize addr len i total fam data)[k]? = some 0#8 := by
  have h : (serialize addr len i total fam data)[k]? =
      ((serialize addr len i total fam data).drop 32)[k - 32]? := by
    rw [List.getElem?_drop, show 32 + (k - 32) = k by omega]
  rw [h, serialize_drop32, List.getElem?_append_right (by omega),
    List.getElem?_append_left (by simp only [zeros, List.length_replicate]; omega), zeros,
    List.getElem?_replicate, if_pos (by omega)]

end Fields

/-! ### The record in OUT_BUF -/

/-- OUT_BUF after a whole record was stored into it. -/
theorem bufBytes_out_record (r : List Byte) (s : State) (hr : r.length = 512) (off n : Nat)
    (h : off + n ≤ 512) : bufBytes .out off n (storeBytes .out 0 r s) = (r.drop off).take n := by
  have h1 : bufBytes .out 0 512 (storeBytes .out 0 r s) = r := hr ▸ bufBytes_storeBytes_self .out 0 r s
  have h2 := bufBytes_drop_take .out 0 512 off n (storeBytes .out 0 r s) h
  rw [h1, Nat.zero_add] at h2
  exact h2.symm

theorem memRead_out_record (r : List Byte) (s : State) (hr : r.length = 512) (off : Nat)
    (h : off + 4 ≤ 512) : memRead .out off 4 (storeBytes .out 0 r s) = recordField off r := by
  rw [memRead, bufBytes_out_record r s hr off 4 h, recordField]

/-- The record EMIT stores, field by field. -/
theorem outBufHolds_nextBlock (s u : State) :
    OutBufHolds (chunkAddr s).toNat (chunkLen s) s.blockIndex.toNat s.totalBlocks.toNat
      s.familyId.toNat (chunkData s) (storeBytes .out 0 (nextBlock s) u) := by
  have hl : chunkLen s ≤ 476 := Nat.le_trans (chunkLen_le s) (by decide)
  have hr := nextBlock_length s
  have hf := fun off h => memRead_out_record (nextBlock s) u hr off h
  constructor
  case chunk =>
    rw [bufBytes_out_record _ _ hr _ _ (by have := chunkLen_le s; omega)]
    exact serialize_chunk _ _ _ _ _ _ (chunkData_length s)
  case padding =>
    intro k h1 h2
    have h3 := serialize_padding (chunkAddr s) (chunkLen s) s.blockIndex s.totalBlocks s.familyId
      (chunkData s) (chunkData_length s) k h1 h2
    have h4 := byteAt_storeBytes_inside .out 0 (nextBlock s) u k (by omega)
    rw [show Buffer.out.base + 0 + k = 0x400 + k from rfl] at h4
    rw [h4]
    exact (List.getElem?_eq_some_iff.mp h3).2
  all_goals rw [hf _ (by omega)]
  case magic0 => exact serialize_magic0 ..
  case magic1 => exact serialize_magic1 ..
  case flags => exact serialize_flags ..
  case targetAddress => exact serialize_address ..
  case payloadLength => exact serialize_payloadLength _ _ _ _ _ _ hl
  case blockIndex => exact serialize_blockIndex ..
  case totalBlocks => exact serialize_totalBlocks ..
  case familyId => exact serialize_familyId ..
  case magicEnd => exact serialize_magicEnd _ _ _ _ _ _ (chunkData_length s) hl

end Sys2Proof.Machine
end

