-- ==== Sys2Proof/Laws/Run.lean ====
section
/-! SUPPORT. Running several steps (Host.Core.run), one step at a time. -/

namespace Sys2Proof.Machine

theorem run_zero (s : State) : core.run 0 s = .next s := rfl

theorem host_run_succ_of_next (M : Host.Core) (k : Nat) (s t : M.State) (h : M.step s = .next t) :
    M.run (k + 1) s = M.run k t := by
  rw [Host.Core.run]
  simp only [h]

theorem run_succ_of_next (k : Nat) (s t : State) (h : step s = .next t) :
    core.run (k + 1) s = core.run k t :=
  host_run_succ_of_next core k s t h

end Sys2Proof.Machine
end

