-- ==== Sys2Proof/Machine/Script.lean ====
section
/-! DEFINITION. The host script notation (spec/30_encoding.md R80 to R82) and the program a host follows to
produce a UF2 stream (spec/70_reset_and_hazards.md R163, R164): what a script puts on the agenda. -/

namespace Sys2Proof.Machine

/-! ### Names and spellings -/

/-- The offset a register's name stands for (R52, R80). -/
def Reg.offset : Reg → Offset
  | .ctrl => 0x000#12
  | .cmd => 0x004#12
  | .status => 0x008#12
  | .errCode => 0x00C#12
  | .errCmd => 0x010#12
  | .bootLen => 0x014#12
  | .progLen => 0x018#12
  | .bootBase => 0x01C#12
  | .progBase => 0x020#12
  | .familyId => 0x024#12
  | .crcResult => 0x028#12
  | .totalBlocks => 0x02C#12
  | .blockIndex => 0x030#12
  | .regionPos => 0x034#12

/-- The offset `BUF+4k` stands for (R80). -/
def Buffer.wordOffset (b : Buffer) (k : Nat) : Offset := BitVec.ofNat 12 (b.base + 4 * k)

/-- The command a mnemonic names: upper case, or lower case throughout (R82). -/
def mnemonicCommand (name : String) : Option Instr :=
  match name with
  | "INJECT" => some .inject
  | "inject" => some .inject
  | "VERIFY" => some .verify
  | "verify" => some .verify
  | "START" => some .start
  | "start" => some .start
  | "EMIT" => some .emit
  | "emit" => some .emit
  | "CLEAR" => some .clear
  | "clear" => some .clear
  | _ => none

/-- How a script spells a command word: the mnemonic of R71, or `0xNN`, which may be illegal (R82). -/
inductive CommandName where
  | mnemonic (i : Instr)
  | numeric (nn : Byte)
deriving DecidableEq, Repr

/-- The word a spelling stands for (R82). -/
def CommandName.word : CommandName → Word
  | .mnemonic i => encode i
  | .numeric nn => nn.setWidth 32

/-! ### Lines -/

/-- A line of a host script (R80, R81). -/
inductive ScriptLine where
  | wr (off : Offset) (data : Word)
  | rd (off : Offset)
  | cmd (name : CommandName)
  /-- `busyPolls` is how many STATUS reads answer BUSY = 1 before the engine's step (R171) -/
  | wait (busyPolls : Nat)
  | run (name : CommandName) (busyPolls : Nat)
  | loadBoot (image : List Byte)
  | stage (chunk : List Byte)
  | readBlock
deriving DecidableEq, Repr

/-- What a line expects of each of its responses: OKAY, ERROR (`-> ERROR`), or a read's data (`-> v`)
(R80). -/
inductive Expectation where
  | okay
  | error
  | value (v : Word)
deriving DecidableEq, Repr

/-- A response meets an expectation (R80). -/
def Expectation.metBy : Expectation → BusResponse → Bool
  | .okay, .okayRead _ => true
  | .okay, .okayWrite => true
  | .okay, .error => false
  | .error, r => decide (r = .error)
  | .value v, r => decide (r = .okayRead v)

/-- `wr OFF, DATA` (R80). -/
def scriptWrite (off : Offset) (w : Word) : Event := .host (.write off w)

/-- `rd OFF` (R80). -/
def scriptRead (off : Offset) : Event := .host (.read off)

/-- `wait`: STATUS reads until one answers BUSY = 0, the engine's step coming after `busyPolls` of them
(R81, R171). -/
def scriptWait (busyPolls : Nat) : List Event :=
  List.replicate busyPolls (scriptRead Reg.status.offset)
    ++ [.engineTurn, scriptRead Reg.status.offset]

/-- `MemRead(bytes, 4k, 4)` of a byte sequence, the word written for its word `k` (R13, R81). -/
def sequenceWord (bytes : List Byte) (k : Nat) : Word :=
  BitVec.ofNat 32 (leValue ((bytes.drop (4 * k)).take 4))

/-- The steps a line stands for (R80, R81). -/
def ScriptLine.expand : ScriptLine → List Event
  | .wr off w => [scriptWrite off w]
  | .rd off => [scriptRead off]
  | .cmd name => [scriptWrite Reg.cmd.offset name.word]
  | .wait n => scriptWait n
  | .run name n => scriptWrite Reg.cmd.offset name.word :: scriptWait n
  | .loadBoot image =>
    (List.range 64).map (fun k => scriptWrite (Buffer.boot.wordOffset k) (sequenceWord image k))
      ++ [scriptWrite Reg.bootLen.offset (BitVec.ofNat 32 Config.bootImageSize)]
  | .stage chunk =>
    (List.range (ceilDiv chunk.length 4)).map (fun k =>
      scriptWrite (Buffer.data.wordOffset k) (sequenceWord (chunk ++ List.replicate 3 0#8) k))
  | .readBlock => (List.range 128).map (fun k => scriptRead (Buffer.out.wordOffset k))

/-- A script's steps, in its order (R80). -/
def scriptEvents (lines : List ScriptLine) : List Event := lines.flatMap ScriptLine.expand

/-- What the host appends to its output stream for the responses of a `read_block`, in the order they
came: each word as `LE32` (R81). -/
def streamBytes : List BusResponse → List Byte
  | [] => []
  | .okayRead w :: rs => le32 w ++ streamBytes rs
  | .okayWrite :: rs => streamBytes rs
  | .error :: rs => streamBytes rs

/-! ### The program of R163 -/

/-- The chunks of the program data, in order; an empty program is one empty chunk if EMPTY_BLK = 1 and
none if it is 0 (R100, R102). -/
def programChunks (emptyBlk : Bool) (p : List Byte) : List (List Byte) :=
  if p.length = 0 then (if emptyBlk then [[]] else [])
  else (List.range (ceilDiv p.length Config.dataChunkSize)).map (fun k =>
    (p.drop (k * Config.dataChunkSize)).take Config.dataChunkSize)

/-- R163's steps 1 to 7 for a boot image `b` and program data `p` from reset, every command answering at
its first poll; with CTRL.BOOT_EN = 0, `b` is none and steps 2 and 3 are skipped (R164). -/
def streamScript (emptyBlk : Bool) (b : Option (List Byte)) (p : List Byte) : List ScriptLine :=
  let emitted := [ScriptLine.run (.mnemonic .emit) 0, .readBlock]
  [.wr Reg.ctrl.offset (BitVec.ofNat 32 (b.isSome.toNat + 2 * emptyBlk.toNat))]
    ++ (match b with
      | none => []
      | some image => [.loadBoot image, .run (.mnemonic .inject) 0])
    ++ [.wr Reg.progLen.offset (BitVec.ofNat 32 p.length), .run (.mnemonic .start) 0]
    ++ (match b with
      | none => []
      | some _ => emitted)
    ++ (programChunks emptyBlk p).flatMap (fun c => .stage c :: emitted)
    ++ [.rd Reg.status.offset]

end Sys2Proof.Machine
end

