-- ==== Sys2Proof/Tests/Slice0.lean ====
section
/-! SUPPORT. The model's own tests. Expected values are spec/95_test_vectors.md's (V-…), the encodings are
spec/30_encoding.md R70 and R71's; then one witness for each statement that has hypotheses. -/

namespace Sys2Proof.Tests

open Sys2Proof Sys2Proof.Machine

/-! ### Small states -/

/-- BOOT_BUF holds a 252-byte body and these four bytes, BOOT_LEN = 256. -/
def bootState (body checksum : List Byte) : State :=
  { storeBytes .boot 0 (body ++ checksum) State.reset with bootLen := 256#32 }

/-- The zero image's body. -/
def zeroBody : List Byte := List.replicate 252 0#8

/-- The start of V-I1. -/
def zeroBoot : State := bootState zeroBody [0x00#8, 0x00#8, 0x00#8, 0x00#8]

/-- What V-I1 leaves. -/
def injected : State :=
  { bootState zeroBody [0x9A#8, 0x39#8, 0x65#8, 0x70#8] with bootOk := true, crcResult := 0x7065399A#32 }

/-- P1 after START. -/
def passBoot : State := { injected with progLen := 4#32, active := true, totalBlocks := 2#32 }

/-- P1 before its second EMIT, DE AD BE EF staged. -/
def passProg : State :=
  { storeBytes .data 0 [0xDE#8, 0xAD#8, 0xBE#8, 0xEF#8] passBoot with
    region := .prog
    blockIndex := 1#32
    outValid := true }

/-- The same without the boot image's bytes. -/
def passProgOnly : State :=
  { passProg with mem := cellsAt 0x200 [0xDE#8, 0xAD#8, 0xBE#8, 0xEF#8] }

/-- A pass of the program region alone that has just started. -/
def passOf (emptyBlk : Bool) (len total : Word) : State :=
  { State.reset with
    bootEn := false
    emptyBlk := emptyBlk
    progLen := len
    active := true
    region := .prog
    totalBlocks := total }

/-- A command has just been latched. -/
def latched (w : Word) (s : State) : State := { s with pendingCmd := w, busy := true }

/-- An error is pending. -/
def failing : State := { State.reset with err := true, errCode := 4#8 }

/-- The step gives a next state with this property. -/
def nextIs (o : Host.Outcome State Fault Refusal) (p : State → Bool) : Bool :=
  match o with
  | .next t => p t
  | .fault _ => false
  | .refused _ => false

theorem zeroBody_length : zeroBody.length = 252 := List.length_replicate

/-- A state that stores `bootState`'s bytes holds its body and its checksum field. -/
theorem boot_bytes (s : State) (body checksum : List Byte) (hb : body.length = 252)
    (hc : checksum.length = 4) (hm : s.mem = (bootState body checksum).mem) (hr : s.resetDraw = 0) :
    bufBytes .boot 0 252 s = body ∧ bufBytes .boot 252 4 s = checksum := by
  have hall : bufBytes .boot 0 256 s = body ++ checksum := by
    have h := bufBytes_storeBytes_self .boot 0 (body ++ checksum) State.reset
    rw [List.length_append, hb, hc] at h
    rw [← h]
    apply bufBytes_congr
    intro k _
    rw [byteAt, byteAt, hm, unwrittenByte, unwrittenByte, hr]
    rfl
  have h1 := bufBytes_drop_take .boot 0 256 0 252 s (by omega)
  have h2 := bufBytes_drop_take .boot 0 256 252 4 s (by omega)
  rw [hall] at h1 h2
  rw [← h1, ← h2]
  simp [hb, hc]

theorem boot_wf (s : State) (body checksum : List Byte) (hb : body.length = 252)
    (hc : checksum.length = 4) (hm : s.mem = (bootState body checksum).mem) : Memory.wf s.mem := by
  rw [hm]
  exact storeBytes_wf .boot 0 _ State.reset ⟨List.Pairwise.nil, by simp [State.reset]⟩
    (by simp [hb, hc, Buffer.size])

theorem zeroBoot_bytes : bufBytes .boot 0 252 zeroBoot = zeroBody ∧
    bufBytes .boot 252 4 zeroBoot = [0x00#8, 0x00#8, 0x00#8, 0x00#8] :=
  boot_bytes zeroBoot zeroBody [0x00#8, 0x00#8, 0x00#8, 0x00#8] zeroBody_length rfl rfl rfl

theorem injected_bytes : bufBytes .boot 0 252 injected = zeroBody ∧
    bufBytes .boot 252 4 injected = [0x9A#8, 0x39#8, 0x65#8, 0x70#8] :=
  boot_bytes injected zeroBody [0x9A#8, 0x39#8, 0x65#8, 0x70#8] zeroBody_length rfl rfl rfl

theorem passBoot_bytes : bufBytes .boot 0 252 passBoot = zeroBody ∧
    bufBytes .boot 252 4 passBoot = [0x9A#8, 0x39#8, 0x65#8, 0x70#8] :=
  boot_bytes passBoot zeroBody [0x9A#8, 0x39#8, 0x65#8, 0x70#8] zeroBody_length rfl rfl rfl

/-- R96's value for 252 zero bytes. -/
theorem test_crc_zero_image : crc32 zeroBody = 0x7065399A#32 := by decide +kernel

/-- R96's value for the bytes 00 to FB. -/
theorem test_crc_counting_image : crc32 ((List.range 252).map (BitVec.ofNat 8)) = 0xB454E2A8#32 := by
  decide +kernel

/-! ### Well-formedness and decoding -/

theorem test_reserved_bits_refused :
    commandReservedClear 0x00000101#32 = false ∧ commandReservedClear 0x80000003#32 = false ∧
      commandReservedClear 0x00000100#32 = false := by decide

theorem test_undefined_opcodes_refused :
    commandOpcodeDefined 0x00000000#32 = false ∧ commandOpcodeDefined 0x00000006#32 = false ∧
      commandOpcodeDefined 0x000000FF#32 = false := by decide

theorem test_illegal_words_refused :
    commandLegal 0x00000101#32 = false ∧ commandLegal 0x00000006#32 = false ∧
      commandLegal 0xFFFFFFFF#32 = false := by decide

theorem test_decode_inject :
    decode 0b00000000000000000000000000000001#32 = .command .inject := by decide

theorem test_decode_verify :
    decode 0b00000000000000000000000000000010#32 = .command .verify := by decide

theorem test_decode_start :
    decode 0b00000000000000000000000000000011#32 = .command .start := by decide

theorem test_decode_emit :
    decode 0b00000000000000000000000000000100#32 = .command .emit := by decide

theorem test_decode_clear :
    decode 0b00000000000000000000000000000101#32 = .command .clear := by decide

theorem test_decode_rejects_by_name :
    decode 0b00000000000000000000000000000000#32 = .rejected (.undefinedOpcode 0#8) ∧
      decode 0b00000000000000000000000000000110#32 = .rejected (.undefinedOpcode 6#8) ∧
      decode 0b00000000000000000000000100000001#32 = .rejected (.reservedBits 1#24) ∧
      decode 0b10000000000000000000000000000011#32 = .rejected (.reservedBits 0x800000#24) := by decide

theorem test_build_check_passes : Config.buildCheck = true := by decide

/-! ### Commands -/

/-- V-I1. -/
theorem test_inject_zero_image : ∃ t, exec .inject zeroBoot = .next t ∧
    memRead .boot 252 4 t = 0x7065399A ∧ t.crcResult = 0x7065399A#32 ∧ statusWord t = 0x10#32 := by
  have hcrc : crc32 (bootBody zeroBoot) = 0x7065399A#32 := by
    rw [bootBody, Config.crcOffset, zeroBoot_bytes.1, test_crc_zero_image]
  refine ⟨complete (injectChecksum zeroBoot), by rw [exec_inject_eq]; rfl, ?_, hcrc, rfl⟩
  rw [memRead, bufBytes_complete, bufBytes_injectChecksum_field, hcrc]
  decide

/-- V-I4. -/
theorem test_inject_short_image : nextIs (exec .inject { State.reset with bootLen := 252#32 }) (fun t =>
    decide (t.errCode = 1#8 ∧ t.errCmd = 0x00000001#32 ∧ statusWord t = 0x08#32 ∧
      t.mem = [] ∧ t.crcResult = 0#32)) = true := by decide +kernel

/-- V-V1. -/
theorem test_verify_matching_image :
    ∃ t, exec .verify (bootState ((List.range 252).map (BitVec.ofNat 8)) [0xA8#8, 0xE2#8, 0x54#8, 0xB4#8])
        = .next t ∧ t.crcResult = 0xB454E2A8#32 ∧ t.bootOk = true ∧ t.err = false := by
  obtain ⟨hbody, hfield⟩ := boot_bytes (bootState ((List.range 252).map (BitVec.ofNat 8))
    [0xA8#8, 0xE2#8, 0x54#8, 0xB4#8]) _ _ (by simp) rfl rfl rfl
  refine ⟨complete (checkChecksum _), by rw [exec_verify_eq]; rfl, ?_, ?_, rfl⟩
  · rw [complete_crcResult, checkChecksum_crcResult, bootBody, Config.crcOffset, hbody,
      test_crc_counting_image]
  · rw [complete_bootOk, checkChecksum_bootOk, storedChecksum, memRead, bootBody, Config.crcOffset,
      Config.crcWidth, hbody, hfield, test_crc_counting_image]
    decide

/-- V-V3. -/
theorem test_verify_mismatch_is_no_error : ∃ t, exec .verify zeroBoot = .next t ∧
    t.crcResult = 0x7065399A#32 ∧ t.bootOk = false ∧ t.err = false := by
  refine ⟨complete (checkChecksum zeroBoot), by rw [exec_verify_eq]; rfl, ?_, ?_, rfl⟩
  · rw [complete_crcResult, checkChecksum_crcResult, bootBody, Config.crcOffset, zeroBoot_bytes.1,
      test_crc_zero_image]
  · rw [complete_bootOk, checkChecksum_bootOk, storedChecksum, memRead, bootBody, Config.crcOffset,
      Config.crcWidth, zeroBoot_bytes.1, zeroBoot_bytes.2, test_crc_zero_image]
    decide

/-- V-S1. -/
theorem test_start_counts_both_regions : nextIs (exec .start { injected with progLen := 4#32 }) (fun t =>
    decide (t.totalBlocks = 2#32 ∧ t.region = .boot ∧ statusWord t = 0x12#32)) = true := by decide +kernel

/-- V-S12. -/
theorem test_start_address_overflow :
    nextIs (exec .start { injected with bootBase := 0xFFFFFF01#32 }) (fun t =>
      decide (t.errCode = 6#8 ∧ statusWord t = 0x18#32)) = true := by decide +kernel

/-- V-E2, block 1 of L1-1c. -/
theorem test_emit_last_block : nextIs (exec .emit passProgOnly) (fun t =>
    decide ((List.range 9).map (fun k => memRead .out (4 * k) 4 t) =
        [0x0A324655, 0x9E5D5157, 0x00002000, 0x10000100, 4, 1, 2, 0xE48BFF56, 0xEFBEADDE] ∧
      memRead .out 36 4 t = 0 ∧ memRead .out 508 4 t = 0x0AB16F30 ∧
      t.blockIndex = 2#32 ∧ t.regionPos = 4#32 ∧ statusWord t = 0x74#32)) = true := by decide +kernel

/-- V-E6, the zero-length block. -/
theorem test_emit_zero_length_block : nextIs (exec .emit (passOf true 0#32 1#32)) (fun t =>
    decide ((List.range 9).map (fun k => memRead .out (4 * k) 4 t) =
        [0x0A324655, 0x9E5D5157, 0x00002000, 0x10000100, 0, 0, 1, 0xE48BFF56, 0] ∧
      memRead .out 508 4 t = 0x0AB16F30 ∧ statusWord t = 0x64#32)) = true := by decide +kernel

/-- V-C8. -/
theorem test_clear_pending_error : nextIs (exec .clear failing) (fun t =>
    decide (statusWord t = 0x00#32 ∧ t.errCode = 0#8 ∧ t.errCmd = 0#32)) = true := by decide +kernel

/-- V-C10. -/
theorem test_clear_aborts_pass : nextIs (exec .clear passProgOnly) (fun t =>
    decide (statusWord t = 0x10#32 ∧ t.totalBlocks = 0#32 ∧ t.blockIndex = 0#32 ∧
      t.regionPos = 0#32 ∧ t.mem = passProgOnly.mem)) = true := by decide +kernel

/-- V-C5. -/
theorem test_illegal_word_recorded : nextIs (step (State.reset.withFetchWord 32 0x80000003)) (fun t =>
    decide (t.errCode = 4#8 ∧ t.errCmd = 0x80000003#32 ∧ statusWord t = 0x08#32)) = true := by
  decide +kernel

/-! ### Bus -/

/-- V-B1. -/
theorem test_ctrl_reserved_bits :
    (busTransaction (.read 0x000#12) (busTransaction (.write 0x000#12 0xFFFFFFFF#32) State.reset)).responses
      = [.okayRead 0x00000003#32, .okayWrite] := by decide +kernel

/-- V-B3, V-B4, V-B5 and V-B7. -/
theorem test_refused_transactions :
    [0x002#12, 0x038#12, 0x0FC#12, 0x300#12, 0x600#12, 0xFFC#12].all
      (fun off => (busTransaction (.read off) State.reset).responses == [.error]) ∧
    [0x201#12, 0x008#12, 0x028#12, 0x400#12].all
      (fun off => (busTransaction (.write off 1#32) State.reset).responses == [.error]) := by decide +kernel

/-- V-B8 and V-B9. -/
theorem test_locked_while_active :
    [0x000#12, 0x100#12, 0x014#12, 0x018#12, 0x01C#12].all
      (fun off => (busTransaction (.write off 0#32) passProgOnly).responses == [.error]) ∧
    (busTransaction (.write 0x200#12 5#32) passProgOnly).responses = [.okayWrite] := by decide +kernel

/-- V-B10 and V-B11. -/
theorem test_busy_block :
    (busTransaction (.write 0x004#12 4#32) (latched 4#32 passBoot)).responses = [.error] ∧
    (busTransaction (.read 0x008#12) (latched 4#32 passBoot)).responses = [.okayRead 0x00000013#32] := by
  decide +kernel

/-! ### Scripts -/

/-- P1 line 9, and R81's `load_boot`. -/
theorem test_script_expansion :
    (ScriptLine.stage [0xDE#8, 0xAD#8, 0xBE#8, 0xEF#8]).expand
      = [.host (.write 0x200#12 0xEFBEADDE#32)] ∧
    (ScriptLine.loadBoot (List.replicate 256 0#8)).expand.length = 65 ∧
    (ScriptLine.loadBoot (List.replicate 256 0#8)).expand.getLast?
      = some (.host (.write 0x014#12 0x00000100#32)) := by decide +kernel

theorem test_mnemonic_spelling :
    mnemonicCommand "EMIT" = some .emit ∧ mnemonicCommand "emit" = some .emit ∧
      mnemonicCommand "HALT" = none ∧ (CommandName.numeric 0x13#8).word = 0x00000013#32 := by decide +kernel

/-! ### Witnesses: for each statement with hypotheses, states and operands that meet them together -/

theorem witness_IllegalWordRaisesIllegalCommand :
    commandLegal 0x00000006#32 = false ∧ (latched 0x00000006#32 State.reset).pendingCmd = 0x00000006#32 ∧
      (latched 0x00000006#32 State.reset).err = false ∧ (latched 0x00000006#32 failing).err = true := by
  decide

theorem witness_StepRunsDecodedCommand :
    (latched 3#32 injected).busy = true ∧ decode (latched 3#32 injected).pendingCmd = .command .start ∧
      (latched 3#32 injected).agenda = [] ∧
      (State.withFetchWord injected 32 3).agenda = .engineTurn :: [] ∧
      (State.withFetchWord injected 32 3).busy = true ∧
      decode (State.withFetchWord injected 32 3).pendingCmd = .command .start := by decide

theorem witness_EngineStepDispatches :
    (latched 5#32 failing).pendingCmd = 5#32 ∧
      ((latched 4#32 failing).pendingCmd ≠ 5#32 ∧ (latched 4#32 failing).err = true) ∧
      (latched 1#32 injected).pendingCmd = 1#32 ∧ (latched 2#32 injected).pendingCmd = 2#32 ∧
      (latched 3#32 injected).pendingCmd = 3#32 ∧ (latched 4#32 passBoot).pendingCmd = 4#32 ∧
      ((latched 6#32 injected).err = false ∧
        (latched 6#32 injected).pendingCmd ∉ [1#32, 2#32, 3#32, 4#32, 5#32]) ∧
      (latched 1#32 injected).busy = true ∧ injected.busy = false := by decide

theorem witness_HostStepCompletesTransaction :
    ({ injected with agenda := [.host (.write 0x018#12 4#32)] } : State).agenda
      = .host (.write 0x018#12 4#32) :: [] := rfl

theorem witness_ResetGivesResetValues :
    (latched 1#32 passBoot).busy = true ∧ ∃ s : State, hardReset (latched 1#32 passBoot) = hardReset s :=
  ⟨rfl, _, rfl⟩

theorem witness_ResetInputAlwaysAccepted :
    ({ latched 1#32 passBoot with agenda := [.reset] } : State).agenda = .reset :: [] := rfl

theorem witness_InjectWritesChecksum :
    (passBoot.err = false ∧ passBoot.active = true) ∧
      (let s : State := { zeroBoot with bootLen := 257#32 }
       s.err = false ∧ s.active = false ∧ s.bootLen ≠ 256#32) ∧
      zeroBoot.err = false ∧ zeroBoot.active = false ∧ zeroBoot.bootLen = 256#32 := by decide

theorem zeroBoot_zero (k : Nat) (hk : k < 252) : byteAt zeroBoot (0x100 + k) = 0#8 := by
  have h := congrArg (fun l => l[k]?) zeroBoot_bytes.1
  simp only [bufBytes_getElem? .boot 0 252 _ k hk, zeroBody, List.getElem?_replicate, hk, if_true] at h
  exact Option.some.inj h

theorem injected_zero (k : Nat) (hk : k < 252) : byteAt injected (0x100 + k) = 0#8 := by
  have h := congrArg (fun l => l[k]?) injected_bytes.1
  simp only [bufBytes_getElem? .boot 0 252 _ k hk, zeroBody, List.getElem?_replicate, hk, if_true] at h
  exact Option.some.inj h

theorem witness_InjectWritesChecksum_zero_bytes : ∀ k, k < 252 → byteAt zeroBoot (0x100 + k) = 0#8 :=
  zeroBoot_zero

theorem witness_VerifyComparesChecksum :
    (let s : State := { zeroBoot with bootLen := 255#32 }
     s.err = false ∧ s.bootLen ≠ 256#32) ∧
      zeroBoot.err = false ∧ zeroBoot.bootLen = 256#32 ∧ injected.err = false ∧ injected.bootLen = 256#32 := by
  decide

theorem witness_VerifyComparesChecksum_bytes :
    (∀ k, k < 252 → byteAt zeroBoot (0x100 + k) = 0#8) ∧
      bufBytes .boot 252 4 zeroBoot = [0x00#8, 0x00#8, 0x00#8, 0x00#8] ∧
      (∀ k, k < 252 → byteAt injected (0x100 + k) = 0#8) ∧
      bufBytes .boot 252 4 injected = [0x9A#8, 0x39#8, 0x65#8, 0x70#8] :=
  ⟨zeroBoot_zero, zeroBoot_bytes.2, injected_zero, injected_bytes.2⟩

theorem witness_VerifyAfterInjectPasses :
    zeroBoot.err = false ∧ zeroBoot.active = false ∧ zeroBoot.bootLen = 256#32 := by decide

theorem witness_InjectIsIdempotent :
    (zeroBoot.err = false ∧ zeroBoot.active = false ∧ zeroBoot.bootLen = 256#32) ∧
      ∃ t, exec .inject zeroBoot = .next t ∧ t.err = false ∧ t.active = false ∧ t.bootLen = 256#32 ∧
        bufBytes .boot 0 256 t = bufBytes .boot 0 256 t :=
  ⟨by decide, complete (injectChecksum zeroBoot), by rw [exec_inject_eq]; rfl, rfl, rfl, rfl, rfl⟩

theorem injected_checksum : checksumValid injected ∧ injected.crcResult = crc32 (bufBytes .boot 0 252 injected) := by
  unfold checksumValid
  rw [injected_bytes.1, injected_bytes.2, test_crc_zero_image]
  exact ⟨by decide, rfl⟩

theorem witness_ChecksumKeptUntilBootWrite :
    let s : State := { injected with agenda := [.host (.write 0x018#12 4#32)] }
    nextIs (step s) (fun _ => true) = true ∧ ¬acceptedBootWrite (.write 0x018#12 4#32) s ∧
      s.agenda.head? ≠ some .reset ∧ checksumValid s ∧ s.crcResult = crc32 (bufBytes .boot 0 252 s) := by
  have hcheck : busCheck true 0x018#12 { injected with agenda := [.host (.write 0x018#12 4#32)] }
      = .ok (.reg .progLen) := by rfl
  refine ⟨by decide +kernel, ?_, by decide, injected_checksum⟩
  simp [acceptedBootWrite, hcheck]

theorem witness_StartBeginsPass :
    let s : State := { injected with bootBase := 0xFFFFFF00#32, progBase := 0xFFFFFF00#32, progLen := 256#32 }
    s.err = false ∧ s.active = false ∧ s.bootEn = true ∧ s.bootLen = 256#32 ∧ s.bootOk = true ∧
      s.bootBase.toNat + 255 = 0xFFFFFFFF ∧ 0 < s.progLen.toNat ∧
      s.progBase.toNat + s.progLen.toNat - 1 = 0xFFFFFFFF := by decide

theorem witness_StartBeginsPass_no_blocks :
    (passOf false 0#32 0#32).err = false ∧ ({ passOf false 0#32 0#32 with active := false } : State).active = false ∧
      (passOf false 0#32 0#32).bootEn = false ∧ (passOf false 0#32 0#32).progLen.toNat = 0 := by decide

theorem witness_StartErrorsInOrder :
    passBoot.active = true ∧
      (zeroBoot.active = false ∧ zeroBoot.bootEn = true ∧ (255#32 : Word) ≠ 256#32) ∧
      (zeroBoot.bootLen = 256#32 ∧ zeroBoot.bootOk = false ∧ zeroBoot.err = false) ∧
      (let s : State := { injected with bootBase := 0xFFFFFF01#32 }
       s.active = false ∧ s.bootEn = true ∧ s.bootLen = 256#32 ∧ s.bootOk = true ∧
         s.bootBase.toNat + 255 > 0xFFFFFFFF) ∧
      (let s : State := { injected with progBase := 0xFFFFFF00#32, progLen := 257#32 }
       s.active = false ∧ s.bootBase.toNat + 255 ≤ 0xFFFFFFFF ∧ 0 < s.progLen.toNat ∧
         s.progBase.toNat + s.progLen.toNat - 1 > 0xFFFFFFFF) := by decide

theorem witness_StartAddressOverflowIff :
    (injected.err = false ∧ injected.active = false ∧ injected.bootLen = 256#32 ∧ injected.bootOk = true) ∧
      ({ State.reset with bootEn := false } : State).bootEn = false ∧ State.reset.progLen = 0#32 := by decide

theorem witness_PayloadTooLargeUnreachable :
    nextIs (exec .start { failing with errCode := 2#8 }) (fun t => decide (t.errCode = 2#8)) = true := by decide +kernel

theorem witness_EmitSerializesNextBlock :
    (injected.err = false ∧ injected.active = false) ∧
      (passBoot.err = false ∧ passBoot.active = true ∧ passBoot.region = .boot ∧
        passBoot.blockIndex.toNat + 1 ≠ passBoot.totalBlocks.toNat) ∧
      (passProg.err = false ∧ passProg.active = true ∧ passProg.region = .prog ∧
        passProg.blockIndex.toNat + 1 = passProg.totalBlocks.toNat) := by decide

/-- P1 after START has the invariant. -/
theorem passBoot_inv : BlockInv passBoot where
  memory := boot_wf _ zeroBody [0x9A#8, 0x39#8, 0x65#8, 0x70#8] zeroBody_length rfl rfl
  notActiveAndDone := by decide
  indexLeTotal := by decide
  activeIndexLt := by decide
  activeBoot := by decide
  activeProg := by decide
  doneIndex := by decide
  activeTotal := by decide
  activeProgIndex := by decide
  activeBootRange := by decide
  activeProgRange := by decide
  activeBootOk := by decide
  bootOkLength := by decide
  bootOkChecksum := fun _ => injected_checksum.1
  bootOkResult := fun _ => injected_checksum.2
  noErrorRegisters := by decide
  errorCodes := by decide

/-- Staging leaves BOOT_BUF. -/
theorem passProg_boot (off n : Nat) (h : off + n ≤ 256) :
    bufBytes .boot off n passProg = bufBytes .boot off n injected :=
  bufBytes_storeBytes_disjoint .data .boot 0 off n _ passBoot (by right; simp only [Buffer.base]; omega)

/-- P1 before its second EMIT has it. -/
theorem passProg_inv : BlockInv passProg where
  memory := storeBytes_wf .data 0 _ passBoot passBoot_inv.memory (by decide)
  notActiveAndDone := by decide
  indexLeTotal := by decide
  activeIndexLt := by decide
  activeBoot := by decide
  activeProg := by decide
  doneIndex := by decide
  activeTotal := by decide
  activeProgIndex := by decide
  activeBootRange := by decide
  activeProgRange := by decide
  activeBootOk := by decide
  bootOkLength := by decide
  bootOkChecksum := fun _ => by
    have h := injected_checksum.1
    unfold checksumValid at *
    rwa [← passProg_boot 252 4 (by omega), ← passProg_boot 0 252 (by omega)] at h
  bootOkResult := fun _ => by
    rw [passProg_boot 0 252 (by omega)]
    exact injected_checksum.2
  noErrorRegisters := by decide
  errorCodes := by decide

/-- A pass of one program chunk, of at most 256 bytes, has it. -/
theorem passOf_inv (len : Word) (h : 0 < len.toNat) (h' : len.toNat ≤ 256) :
    BlockInv (passOf false len 1#32) where
  memory := ⟨List.Pairwise.nil, by simp [passOf, State.reset]⟩
  notActiveAndDone := by simp [passOf, State.reset]
  indexLeTotal := by simp [passOf, State.reset]
  activeIndexLt := by simp [passOf, State.reset]
  activeBoot := by simp [passOf]
  activeProg := by simp [passOf, State.reset]; omega
  doneIndex := by simp [passOf, State.reset]
  activeTotal := by
    have hne : len.toNat ≠ 0 := by omega
    have hlen : (len.toNat + 255) / 256 = 1 := by omega
    simp [passOf, State.reset, passBlocks, bootRegionBlocks, progRegionBlocks, ceilDiv, hne, hlen]
  activeProgIndex := by simp [passOf, State.reset, bootRegionBlocks]
  activeBootRange := by simp [passOf]
  activeProgRange := by simp [passOf, State.reset, Config.progBaseReset]; omega
  activeBootOk := by simp [passOf]
  bootOkLength := by simp [passOf, State.reset]
  bootOkChecksum := by simp [passOf, State.reset]
  bootOkResult := by simp [passOf, State.reset]
  noErrorRegisters := by simp [passOf, State.reset]
  errorCodes := by simp [passOf, State.reset]

theorem witness_EmittedFieldsWithinBounds :
    (BlockInv passBoot ∧ passBoot.err = false ∧ passBoot.active = true ∧ passBoot.region = .boot) ∧
      BlockInv passProg ∧ passProg.err = false ∧ passProg.active = true ∧ passProg.region = .prog :=
  ⟨⟨passBoot_inv, by decide⟩, passProg_inv, by decide⟩

theorem witness_BootBlockCarriesValidChecksum :
    BlockInv passBoot ∧ passBoot.err = false ∧ passBoot.active = true ∧ passBoot.region = .boot :=
  ⟨passBoot_inv, by decide⟩

/-- Another state that differs from `passProgOnly` past its four-byte chunk only. -/
theorem witness_StaleDataBytesNeverEmitted :
    let u : State := storeBytes .data 4 [0x12#8] passProgOnly
    passProgOnly.err = false ∧ passProgOnly.active = true ∧ passProgOnly.region = .prog ∧
      { u with mem := passProgOnly.mem, resetDraw := passProgOnly.resetDraw } = passProgOnly ∧
      (∀ k : Fin 4, byteAt u (0x200 + k) = byteAt passProgOnly (0x200 + k)) ∧ u.mem ≠ passProgOnly.mem := by
  decide +kernel

theorem witness_BlockBoundaryCases :
    ((passOf false 256#32 1#32).progLen.toNat = 256 * 1 ∧ BlockInv (passOf false 256#32 1#32) ∧
      (passOf false 256#32 1#32).err = false ∧ (passOf false 256#32 1#32).active = true ∧
      (passOf false 256#32 1#32).region = .prog ∧
      (passOf false 256#32 1#32).blockIndex.toNat + 1 = (passOf false 256#32 1#32).totalBlocks.toNat) ∧
      (passOf false 1#32 1#32).progLen.toNat = 1 ∧ BlockInv (passOf false 1#32 1#32) ∧
      (passOf false 1#32 1#32).err = false ∧ (passOf false 1#32 1#32).active = true ∧
      (passOf false 1#32 1#32).region = .prog :=
  ⟨⟨by decide, passOf_inv _ (by decide) (by decide), by decide⟩, by decide,
    passOf_inv _ (by decide) (by decide), by decide⟩

theorem witness_PassRoundTrip :
    let s : State := { injected with progLen := 4#32 }
    let p : List Byte := [0xDE#8, 0xAD#8, 0xBE#8, 0xEF#8]
    s.err = false ∧ nextIs (exec .start s) (fun t => decide (t.err = false)) = true ∧ p.length = s.progLen.toNat ∧
      s.emptyBlk = false := by decide +kernel

theorem witness_PassBlockCountConsistent :
    let s : State := { injected with progLen := 4#32 }
    s.err = false ∧ nextIs (exec .start s) (fun t => decide (t.err = false)) = true ∧
      [0xDE#8, 0xAD#8, 0xBE#8, 0xEF#8].length = s.progLen.toNat ∧ s.emptyBlk = false := by decide +kernel

theorem witness_PassBlockCountConsistent_empty_block :
    let s : State := { injected with emptyBlk := true }
    s.err = false ∧ nextIs (exec .start s) (fun t => decide (t.err = false)) = true ∧ ([] : List Byte).length = s.progLen.toNat ∧
      s.emptyBlk = true ∧ s.progLen = 0#32 := by decide +kernel

theorem witness_PassRerunIdentical :
    let s : State := { injected with progLen := 4#32 }
    let s' : State := { s with done := true, outValid := true, blockIndex := 2#32, totalBlocks := 2#32 }
    s.err = false ∧ s'.err = false ∧ nextIs (exec .start s) (fun t => decide (t.err = false)) = true ∧
      nextIs (exec .start s') (fun t => decide (t.err = false)) = true ∧ s.done ≠ s'.done ∧
      bufBytes .boot 0 256 s = bufBytes .boot 0 256 s' :=
  ⟨rfl, rfl, by decide +kernel, by decide +kernel, by decide, bufBytes_congr _ _ _ _ _ (fun _ _ => rfl)⟩

theorem witness_CommandsSkippedWhileError : Instr.emit ≠ .clear ∧ failing.err = true := by decide

theorem witness_CommandErrorsArePrecise :
    State.reset.err = false ∧ nextIs (exec .emit State.reset) (fun t => decide (t.err = true)) = true := by decide +kernel

theorem witness_FirstErrorStays :
    failing.err = true ∧ nextIs (step (latched 1#32 failing)) (fun t => decide (t.err = true)) = true ∧
      nextIs (step (latched 5#32 failing)) (fun t => decide (t.err = false)) = true ∧
      (nextIs (step { failing with agenda := [.reset] }) (fun t => decide (t.err = false)) = true) := by decide +kernel

theorem witness_RecordedCodesAreRuntimeErrors :
    (latched 4#32 State.reset).err = false ∧
      nextIs (engineStep (latched 4#32 State.reset)) (fun t => decide (t.err = true)) = true := by decide +kernel

theorem witness_EngineWritesOnlyTableRows :
    nextIs (exec .inject zeroBoot) (fun t => decide (t.err = false)) = true ∧
      nextIs (exec .verify zeroBoot) (fun t => decide (t.err = false)) = true ∧
      nextIs (exec .start injected) (fun t => decide (t.err = false)) = true ∧
      nextIs (exec .emit passBoot) (fun t => decide (t.err = false)) = true ∧
      nextIs (exec .emit passProg) (fun t => decide (t.err = false)) = true ∧
      nextIs (exec .clear failing) (fun _ => true) = true ∧
      State.reset.err = false ∧ nextIs (exec .emit State.reset) (fun t => decide (t.err = true)) = true := by decide +kernel

theorem witness_SequencerMovesOnlyByCommands :
    (commandLegal (latched 6#32 passBoot).pendingCmd = false ∧
      nextIs (engineStep (latched 6#32 passBoot)) (fun _ => true) = true) ∧
      (failing.err = true ∧ nextIs (exec .emit failing) (fun _ => true) = true) ∧
      (passBoot.err = false ∧ nextIs (exec .start passBoot) (fun t => decide (t.err = true)) = true) ∧
      nextIs (step (latched 4#32 passBoot)) (fun t => decide (t.blockIndex = 1#32)) = true ∧
      (injected.err = false ∧ nextIs (exec .start injected) (fun t => decide (t.err = false)) = true) ∧
      nextIs (exec .emit passBoot) (fun t => decide (t.err = false)) = true := by decide +kernel

theorem witness_BusErrorExactlyWhenRefused :
    (0x201#12 : Offset).toNat % 4 ≠ 0 ∧ (latched 4#32 passBoot).busy = true ∧ passBoot.active = true ∧
      passBoot.busy = false := by decide

/-- Its offsets: unmapped, mapped, read-only, locked, and neither, at the ends of each range. -/
theorem witness_BusErrorExactlyWhenRefused_offsets :
    [0x038, 0x0FC, 0x300, 0x3FC, 0x600, 0xFFC].all (fun a => a % 4 == 0 && !mappedOffset a) ∧
      [0x034, 0x100, 0x1FC, 0x200, 0x2FC, 0x400, 0x5FC].all (fun a => a % 4 == 0 && mappedOffset a) ∧
      [0x008, 0x010, 0x028, 0x034, 0x400, 0x5FC].all (fun a => a % 4 == 0 && readOnlyOffset a) ∧
      [0x000, 0x014, 0x024, 0x100, 0x1FC].all (fun a => lockedOffset a && !readOnlyOffset a) ∧
      [0x004, 0x200, 0x2FC].all (fun a => mappedOffset a && !lockedOffset a && !readOnlyOffset a) := by
  decide

theorem witness_ReadsWhileBusyReturnDraws :
    (latched 4#32 passBoot).busy = true ∧
      [0x000, 0x034, 0x5FC].all (fun a => a % 4 == 0 && mappedOffset a) = true ∧
      (0x034#12 : Offset) ≠ 0x008#12 := by decide

theorem witness_RegistersReadBackWrites : State.reset.busy = false ∧ State.reset.active = false := by decide

theorem witness_RegisterReadsByOffset : injected.busy = false := by decide

theorem witness_WindowWordsLittleEndian :
    State.reset.busy = false ∧ State.reset.active = false ∧ 4 * 63 < Buffer.boot.size ∧
      4 * 63 < Buffer.data.size ∧ 4 * 127 < Buffer.out.size ∧ Buffer.data ≠ .out := by decide

theorem witness_BootWritesClearBootOk :
    injected.busy = false ∧ injected.active = false ∧ (0x014#12 : Offset).toNat % 4 = 0 ∧
      [0x100, 0x1FC].all (fun a => a % 4 == 0 && decide (0x100 ≤ a ∧ a < 0x200)) = true ∧
      (busTransaction (.write 0x100#12 0#32) passBoot).responses = [.error] := by
  decide +kernel

theorem witness_CmdWriteLatchesCommand :
    passBoot.busy = false ∧ (latched 4#32 passBoot).busy = true := by decide

theorem witness_ReadsInertWritesIdempotent :
    (0x014#12 : Offset) ≠ 0x004#12 ∧ State.reset.busy = false := by decide

theorem witness_BusyBlockIgnoresHost : (latched 4#32 passBoot).busy = true := by decide

theorem witness_BusyPollSynchronises :
    let polled : State := { latched 3#32 injected with agenda := [.host (.read 0x008#12)] }
    let given : State := { latched 3#32 injected with agenda := [.engineTurn] }
    (polled.busy = true ∧ nextIs (step polled) (fun t => decide (t.busy = true)) = true) ∧
      given.busy = true ∧ nextIs (step given) (fun t => decide (t.busy = false)) = true := by decide +kernel

theorem witness_ConfigurationLockedWhileActive :
    passBoot.active = true ∧ 0x100 ≤ (0x1FC#12).toNat ∧ (0x1FC#12).toNat < 0x200 := by decide

theorem witness_UnwrittenBytesReadStable :
    (State.reset.busy = false ∧ State.reset.agenda = [] ∧ nextIs (step State.reset) (fun _ => true) = true) ∧
      ¬stepStoresAt 0x1FF State.reset :=
  ⟨by decide +kernel, fun h => by simp [stepStoresAt, engineStoresAt, State.reset] at h⟩

/-- Its boundary cases: just below INJECT's field, at OUT_BUF's ends, beside a written word, and a write that is
refused. -/
theorem witness_UnwrittenBytesReadStable_boundaries :
    ¬stepStoresAt 0x1FB (latched 1#32 zeroBoot) ∧ stepStoresAt 0x1FC (latched 1#32 zeroBoot) ∧
      ¬stepStoresAt 0x3FF (latched 4#32 passBoot) ∧ stepStoresAt 0x5FF (latched 4#32 passBoot) ∧
      ¬stepStoresAt 0x204 { zeroBoot with agenda := [.host (.write 0x200#12 5#32)] } ∧
      ¬stepStoresAt 0x100 { passBoot with agenda := [.host (.write 0x100#12 5#32)] } := by
  refine ⟨?_, ⟨rfl, rfl, .inl (by decide)⟩, ?_, ⟨rfl, rfl, .inr (by decide)⟩, ?_, ?_⟩
  · rintro ⟨_, _, ⟨_, _, _, h, _⟩ | ⟨h, _⟩⟩ <;> revert h <;> decide
  · rintro ⟨_, _, ⟨h, _⟩ | ⟨_, _, h, _⟩⟩ <;> revert h <;> decide
  · rintro ⟨_, _, h⟩
    revert h
    decide
  · rintro ⟨⟨u, h⟩, _⟩
    have := ((busCheck_write_ok _ _ _).mp h).2
    have hu : u = .word .boot 0 := by
      have := this.1
      rw [show busTarget 0x100#12 = some (.word .boot 0) from rfl] at this
      exact (Option.some.inj this).symm
    subst hu
    exact absurd (this.2.2.2 rfl) (by decide)

theorem witness_WindowOffsetFromBase :
    windowOffset (Config.u2eBase + (0xFFC#12).toNat) = some 0xFFC#12 := by
  have h : Config.u2eBase ≤ Config.u2eBase + 0xFFC ∧ Config.u2eBase + 0xFFC < Config.u2eBase + 4096 := by
    omega
  simp [windowOffset]

theorem witness_StepKeepsInvariant :
    BlockInv passProg ∧ nextIs (step (latched 4#32 passProg)) (fun _ => true) = true :=
  ⟨passProg_inv, by decide +kernel⟩

theorem witness_SequencerInvariantsReachable :
    Reachable State.reset ∧ Reachable { State.reset with agenda := [.host (.write 0x004#12 3#32)] } :=
  ⟨.reset, .plan _ _ .reset⟩

/-- Its last clause: a START that gives no block sets DONE with REGION = PROG. -/
theorem witness_SequencerInvariantsReachable_done :
    nextIs (exec .start { State.reset with bootEn := false }) (fun t => decide (t.err = false ∧ t.done = true ∧ t.region = .prog)) = true := by decide +kernel

theorem witness_EngineStepEventuallyOccurs :
    let s : State := { latched 3#32 injected with agenda := List.replicate 3 (.host (.read 0x008#12)) }
    s.busy = true ∧ s.agenda = List.replicate 3 (.host (.read 0x008#12)) := ⟨rfl, rfl⟩

theorem witness_EndedRunStays : runEnded injected := ⟨rfl, rfl⟩

end Sys2Proof.Tests
end

section
/-! SUPPORT. The proofs of the family of spec/00_scope.md: which codes an engine step records (R9, R109,
R131) and the window's offsets (R8, R51). The lemmas before them say once what the decoder answers and
what a step that raises is. -/

namespace Sys2Proof

/-! ### The decoder and the encoder (R70 to R72) -/

/-- A command word is its two fields, RSV above OP (R70). -/
theorem rsvField_append_opField (w : Word) : rsvField w ++ opField w = w := by
  rw [rsvField, opField, BitVec.extractLsb'_append_extractLsb'_eq_extractLsb' (by rfl)]
  exact BitVec.extractLsb'_eq_self

theorem decode_encode (i : Instr) : decode (encode i) = .command i := by
  cases i <;> decide

/-- The opcode map is inverted by the commands' opcodes (R71). -/
theorem eq_opcodeOf_of_opcodeCommand (op : Byte) (i : Instr) (h : opcodeCommand op = some i) :
    op = opcodeOf i := by
  unfold opcodeCommand at h
  split at h
  case h_6 => cases h
  all_goals
    cases h
    exact BitVec.eq_of_toNat_eq ‹_›

/-- A word decodes to a command exactly if it is that command's encoding (R72). -/
theorem decode_eq_command_iff (w : Word) (i : Instr) : decode w = .command i ↔ w = encode i := by
  refine ⟨fun h => ?_, fun h => h ▸ decode_encode i⟩
  unfold decode at h
  split at h
  · cases h
  next hrsv =>
    split at h
    next j hop =>
      cases h
      rw [← rsvField_append_opField w, not_not.mp hrsv, eq_opcodeOf_of_opcodeCommand _ _ hop, encode]
    · cases h

end Sys2Proof

namespace Sys2Proof.Machine

/-! ### Steps that raise (R131, R140) -/

/-- A command that raises records code 1, 5 or 6 and its own word, and does nothing else (R140). -/
theorem exec_raises (i : Instr) (s t : State) (he : s.err = false) (h : exec i s = .next t)
    (ht : t.err = true) :
    ∃ c, (c = 1#8 ∨ c = 5#8 ∨ c = 6#8) ∧ t = failedWith c (encode i) s := by
  cases i with
  | inject =>
    simp only [exec_inject_eq, he, Bool.false_eq_true, if_false, Host.Outcome.next.injEq] at h
    split at h
    · exact ⟨5#8, by simp, h.symm⟩
    · split at h
      · simp [← h, he] at ht
      · exact ⟨1#8, by simp, h.symm⟩
  | verify =>
    simp only [exec_verify_eq, he, Bool.false_eq_true, if_false, Host.Outcome.next.injEq] at h
    split at h
    · simp [← h, he] at ht
    · exact ⟨1#8, by simp, h.symm⟩
  | start =>
    obtain ⟨he', -⟩ | ⟨-, c, hc, hx⟩ | ⟨-, -, -, hx⟩ := exec_start_cases s
    · simp [he] at he'
    · simp only [hx, Host.Outcome.next.injEq] at h
      exact ⟨c, hc, h.symm⟩
    · simp only [hx, Host.Outcome.next.injEq] at h
      simp [← h, he] at ht
  | emit =>
    simp only [exec_emit_eq, he, Bool.false_eq_true, if_false, Host.Outcome.next.injEq] at h
    split at h
    · simp [← h, he] at ht
    · exact ⟨5#8, by simp, h.symm⟩
  | clear =>
    simp only [exec_clear_eq, Host.Outcome.next.injEq] at h
    simp [← h] at ht

/-- An engine step that raises records code 1, 4, 5 or 6 and the executed word, and does nothing else. -/
theorem engineStep_raises (s t : State) (he : s.err = false) (h : engineStep s = .next t)
    (ht : t.err = true) :
    ∃ c, (c = 1#8 ∨ c = 4#8 ∨ c = 5#8 ∨ c = 6#8) ∧ t = failedWith c s.pendingCmd s := by
  unfold engineStep at h
  split at h
  next i hi =>
    obtain ⟨c, hc, hx⟩ := exec_raises i s t he h ht
    rw [(decode_eq_command_iff _ _).mp hi]
    exact ⟨c, hc.imp_right .inr, hx⟩
  next =>
    injection h with h
    refine ⟨4#8, by simp, ?_⟩
    rw [← h, illegalCommand, runCommand_of_ok _ _ he, complete_raise, CommandError.code]

/-- Settles O34: a raise is the failure of R140 with one of the four codes that R131's raises at run time
give, START's PayloadTooLarge being out of reach (R109). -/
theorem recordedCodesAreRuntimeErrors : Obligations.RecordedCodesAreRuntimeErrors := by
  intro s t he h ht
  obtain ⟨c, hc, rfl⟩ := engineStep_raises s t he h ht
  exact ⟨hc, rfl⟩

/-! ### The register window (R8, R51) -/

/-- The addresses of the window are `U2E_BASE` plus their offset, and no others. -/
theorem windowOffset_eq_some_iff (addr : Nat) (off : Offset) :
    windowOffset addr = some off ↔ addr = Config.u2eBase + off.toNat := by
  have hoff := off.isLt
  by_cases hin : Config.u2eBase ≤ addr ∧ addr < Config.u2eBase + 4096
  · rw [windowOffset, if_pos hin, Option.some_inj, ← BitVec.toNat_inj, BitVec.toNat_ofNat]
    omega
  · rw [windowOffset, if_neg hin]
    simp only [reduceCtorEq, false_iff]
    omega

/-- Settles O51: both halves are `windowOffset_eq_some_iff`. -/
theorem windowOffsetFromBase : Obligations.WindowOffsetFromBase := fun off =>
  ⟨(windowOffset_eq_some_iff _ off).mpr rfl, fun addr => (windowOffset_eq_some_iff addr off).mp⟩

end Sys2Proof.Machine
end

section
/-! SUPPORT. What one command, one engine step and one step of the model can do, said once: each is one of a
few cases, and every invariant is shown case by case (spec/42_control.md R121, spec/20_memory.md R60). -/

namespace Sys2Proof.Machine

/-! ### What a command can do -/

/-- The writes of a command that nothing skips or refuses, but for BUSY. -/
def commandWrites : Instr → State → State
  | .inject, s => injectChecksum s
  | .verify, s => checkChecksum s
  | .start, s => beginPass s
  | .emit, s => storeBytes .out 0 (nextBlock s) (advance s)
  | .clear, s => clearPass (clearError s)

/-- Nothing skips or refuses the command: the conditions of its rule. -/
def commandAccepted : Instr → State → Prop
  | .inject, s => s.err = false ∧ s.active = false ∧ s.bootLen = 256#32
  | .verify, s => s.err = false ∧ s.bootLen = 256#32
  | .start, s => s.err = false ∧ s.active = false ∧ startAccepted s
  | .emit, s => s.err = false ∧ s.active = true
  | .clear, _ => True

/-- A command is skipped, or raises, or makes its own writes. -/
theorem exec_cases (i : Instr) (s t : State) (h : exec i s = .next t) :
    (s.err = true ∧ i ≠ .clear ∧ t = complete s) ∨
    (s.err = false ∧ ∃ c, (c = 1#8 ∨ c = 5#8 ∨ c = 6#8) ∧ t = failedWith c (encode i) s) ∨
    (commandAccepted i s ∧ t = complete (commandWrites i s)) := by
  cases i with
  | inject =>
    obtain rfl := Host.Outcome.next.inj ((exec_inject_eq s).symm.trans h)
    split_ifs with he ha hl
    · exact .inl ⟨he, by decide, rfl⟩
    · exact .inr (.inl ⟨by simpa using he, 5#8, by decide, rfl⟩)
    · exact .inr (.inr ⟨⟨by simpa using he, by simpa using ha, hl⟩, rfl⟩)
    · exact .inr (.inl ⟨by simpa using he, 1#8, by decide, rfl⟩)
  | verify =>
    obtain rfl := Host.Outcome.next.inj ((exec_verify_eq s).symm.trans h)
    split_ifs with he hl
    · exact .inl ⟨he, by decide, rfl⟩
    · exact .inr (.inr ⟨⟨by simpa using he, hl⟩, rfl⟩)
    · exact .inr (.inl ⟨by simpa using he, 1#8, by decide, rfl⟩)
  | start =>
    obtain ⟨he, hx⟩ | ⟨he, c, hc, hx⟩ | ⟨he, ha, hs, hx⟩ := exec_start_cases s <;>
      obtain rfl := Host.Outcome.next.inj (hx.symm.trans h)
    · exact .inl ⟨he, by decide, rfl⟩
    · exact .inr (.inl ⟨he, c, hc, rfl⟩)
    · exact .inr (.inr ⟨⟨he, ha, hs⟩, rfl⟩)
  | emit =>
    obtain rfl := Host.Outcome.next.inj ((exec_emit_eq s).symm.trans h)
    split_ifs with he ha
    · exact .inl ⟨he, by decide, rfl⟩
    · exact .inr (.inr ⟨⟨by simpa using he, ha⟩, rfl⟩)
    · exact .inr (.inl ⟨by simpa using he, 5#8, by decide, rfl⟩)
  | clear => exact .inr (.inr ⟨trivial, (Host.Outcome.next.inj h).symm⟩)

/-- A command that leaves no error was accepted, and made its own writes. -/
theorem exec_of_err_eq_false (i : Instr) (s t : State) (h : exec i s = .next t) (ht : t.err = false) :
    commandAccepted i s ∧ t = complete (commandWrites i s) := by
  obtain ⟨he, -, rfl⟩ | ⟨-, c, -, rfl⟩ | hx := exec_cases i s t h
  · simp [he] at ht
  · cases ht
  · exact hx

/-- Every command gives a next state. -/
theorem exec_eq_next (i : Instr) (s : State) : ∃ t, exec i s = .next t := by
  cases i <;> exact ⟨_, rfl⟩

/-! ### What a step can do -/

theorem commandLegal_encode (i : Instr) : commandLegal (encode i) = true := by
  cases i <;> decide

/-- The engine's step runs the command whose encoding is latched, or answers an illegal word: skipped while an
error is pending, else IllegalCommand (R72, R121). -/
theorem engineStep_cases (s t : State) (h : engineStep s = .next t) :
    (∃ i, s.pendingCmd = encode i ∧ exec i s = .next t) ∨
    (s.err = true ∧ t = complete s) ∨ (s.err = false ∧ t = failedWith 4#8 s.pendingCmd s) := by
  unfold engineStep at h
  split at h
  next i hi => exact .inl ⟨i, (decode_eq_command_iff _ _).mp hi, h⟩
  next =>
    injection h with h
    subst h
    cases he : s.err with
    | false => exact .inr (.inr ⟨rfl, by rw [illegalCommand, runCommand_of_ok _ _ he]; rfl⟩)
    | true => exact .inr (.inl ⟨rfl, by rw [illegalCommand, runCommand_of_err _ _ he]⟩)

/-- A step takes its event off the agenda, leaving `rest`, and is a host transaction, a reset, an idle turn, or
the engine's step (R60). -/
theorem step_cases (s t : State) (h : step s = .next t) : ∃ rest,
    (∃ x, s.agenda = .host x :: rest ∧ t = busTransaction x { s with agenda := rest }) ∨
    (s.agenda = .reset :: rest ∧ t = hardReset { s with agenda := rest }) ∨
    (s.busy = false ∧ t = { s with agenda := rest }) ∨
    (s.busy = true ∧ engineStep { s with agenda := rest } = .next t) := by
  have turn : ∀ rest, engineTurn { s with agenda := rest } = .next t →
      (s.busy = false ∧ t = { s with agenda := rest }) ∨
      (s.busy = true ∧ engineStep { s with agenda := rest } = .next t) := by
    intro rest hx
    cases hb : s.busy <;> simp only [engineTurn, hb, Bool.false_eq_true, if_true, if_false] at hx
    · exact .inl ⟨rfl, (Host.Outcome.next.inj hx).symm⟩
    · exact .inr ⟨rfl, hb ▸ hx⟩
  unfold step at h
  split at h
  next x rest hs => exact ⟨rest, .inl ⟨x, hs, (Host.Outcome.next.inj h).symm⟩⟩
  next rest hs => exact ⟨rest, .inr (.inr (turn rest h))⟩
  next rest hs => exact ⟨rest, .inr (.inl ⟨hs, (Host.Outcome.next.inj h).symm⟩)⟩
  next hs => exact ⟨s.agenda, .inr (.inr (turn s.agenda h))⟩

end Sys2Proof.Machine
end

section
/-! SUPPORT. The model's invariant (Safety.lean), in three parts that each depend on a few fields: an active
pass, the checked boot image, and the error registers. One lemma per operation says that it keeps the
invariant; the steps then follow case by case. -/

namespace Sys2Proof.Machine

/-! ### The parts of the invariant -/

/-- What the invariant says of an active pass: R41's clauses on ACTIVE and what carries them. -/
structure ActivePass (s : State) : Prop where
  notDone : s.done = false
  indexLt : s.blockIndex.toNat < s.totalBlocks.toNat
  boot : s.region = .boot → s.blockIndex = 0#32 ∧ s.regionPos = 0#32 ∧ s.bootEn = true
  prog : s.region = .prog → s.regionPos.toNat % 256 = 0 ∧
    (s.regionPos.toNat < s.progLen.toNat ∨ (s.progLen = 0#32 ∧ s.regionPos = 0#32))
  total : s.totalBlocks.toNat = passBlocks s
  progIndex : s.region = .prog → s.blockIndex.toNat = bootRegionBlocks s + s.regionPos.toNat / 256
  bootRange : s.bootEn = true → s.bootBase.toNat + 255 ≤ 0xFFFFFFFF
  progRange : 0 < s.progLen.toNat → s.progBase.toNat + s.progLen.toNat - 1 ≤ 0xFFFFFFFF
  bootOk : s.bootEn = true → s.bootOk = true

/-- What BOOT_OK stands for: a whole image whose checksum is valid and stands in CRC_RESULT (R46, R94). -/
structure BootChecked (s : State) : Prop where
  length : s.bootLen = 256#32
  checksum : checksumValid s
  result : s.crcResult = crc32 (bufBytes .boot 0 252 s)

theorem BlockInv.activePass {s : State} (h : BlockInv s) (ha : s.active = true) : ActivePass s where
  notDone := by simpa [ha] using h.notActiveAndDone
  indexLt := h.activeIndexLt ha
  boot := h.activeBoot ha
  prog := h.activeProg ha
  total := h.activeTotal ha
  progIndex := h.activeProgIndex ha
  bootRange := h.activeBootRange ha
  progRange := h.activeProgRange ha
  bootOk := h.activeBootOk ha

theorem BlockInv.bootChecked {s : State} (h : BlockInv s) (hb : s.bootOk = true) : BootChecked s where
  length := h.bootOkLength hb
  checksum := h.bootOkChecksum hb
  result := h.bootOkResult hb

/-- The invariant, put together from its parts. -/
theorem BlockInv.of_parts {s : State} (memory : Memory.wf s.mem) (pass : s.active = true → ActivePass s)
    (index : s.blockIndex.toNat ≤ s.totalBlocks.toNat) (done : s.done = true → s.blockIndex = s.totalBlocks)
    (boot : s.bootOk = true → BootChecked s) (noError : s.err = false → s.errCode = 0#8 ∧ s.errCmd = 0#32)
    (codes : s.err = true → s.errCode = 1#8 ∨ s.errCode = 4#8 ∨ s.errCode = 5#8 ∨ s.errCode = 6#8) :
    BlockInv s where
  memory := memory
  notActiveAndDone := fun ⟨ha, hd⟩ => by simp [(pass ha).notDone] at hd
  indexLeTotal := index
  activeIndexLt ha := (pass ha).indexLt
  activeBoot ha := (pass ha).boot
  activeProg ha := (pass ha).prog
  doneIndex := done
  activeTotal ha := (pass ha).total
  activeProgIndex ha := (pass ha).progIndex
  activeBootRange ha := (pass ha).bootRange
  activeProgRange ha := (pass ha).progRange
  activeBootOk ha := (pass ha).bootOk
  bootOkLength hb := (boot hb).length
  bootOkChecksum hb := (boot hb).checksum
  bootOkResult hb := (boot hb).result
  noErrorRegisters := noError
  errorCodes := codes

/-- The boot image stays checked while BOOT_LEN, CRC_RESULT and the bytes of BOOT_BUF stay. -/
theorem BootChecked.of_bytes {s t : State} (h : BootChecked s) (hlen : t.bootLen = s.bootLen)
    (hcrc : t.crcResult = s.crcResult) (hbytes : ∀ a, 0x100 ≤ a → a < 0x200 → byteAt t a = byteAt s a) :
    BootChecked t := by
  have hbuf : ∀ off n, off + n ≤ 256 → bufBytes .boot off n t = bufBytes .boot off n s := by
    intro off n hn
    apply bufBytes_congr
    intro k hk
    apply hbytes <;> rw [base_boot] <;> omega
  constructor
  · rw [hlen, h.length]
  · rw [checksumValid, hbuf 252 4 (by decide), hbuf 0 252 (by decide)]
    exact h.checksum
  · rw [hcrc, hbuf 0 252 (by decide), h.result]

/-! ### Operations outside the invariant's fields -/

section Frame

variable {s : State} (h : BlockInv s)
include h

theorem BlockInv.agenda (es : List Event) : BlockInv { s with agenda := es } := { h with }
theorem BlockInv.busyDraw (n : Nat) : BlockInv { s with busyDraw := n } := { h with }
theorem BlockInv.respond (r : BusResponse) : BlockInv (respond r s) := { h with }
theorem BlockInv.complete : BlockInv (complete s) := { h with }

/-- A raise records one of the codes of R131 that an engine step can raise. -/
theorem BlockInv.failedWith {c : Byte} (hc : c = 1#8 ∨ c = 4#8 ∨ c = 5#8 ∨ c = 6#8) (w : Word) :
    BlockInv (failedWith c w s) :=
  { h with
    noErrorRegisters := fun he => nomatch he
    errorCodes := fun _ => hc }

end Frame

/-! ### Stores and bus writes -/

section Stores

variable {s : State} (h : BlockInv s)
include h

/-- A store into DATA_BUF or OUT_BUF stays clear of the boot image. -/
theorem BlockInv.storeBytes {b : Buffer} {off : Nat} {bs : List Byte} (hb : b ≠ .boot)
    (hr : off + bs.length ≤ b.size) : BlockInv (storeBytes b off bs s) := by
  refine .of_parts (storeBytes_wf b off bs s h.memory hr) (fun ha => { h.activePass ha with }) h.indexLeTotal
    h.doneIndex (fun hok => (h.bootChecked hok).of_bytes rfl rfl ?_) h.noErrorRegisters h.errorCodes
  intro a _ ha
  apply byteAt_storeBytes_outside
  cases b with
  | boot => exact absurd rfl hb
  | data => rw [base_data]; omega
  | out => rw [base_out]; omega

/-- The configuration is free while no pass is active: only an active pass's clauses speak of it (R168). -/
theorem BlockInv.configure (ha : s.active = false) (bootEn emptyBlk : Bool)
    (progLen bootBase progBase familyId : Word) :
    BlockInv { s with bootEn, emptyBlk, progLen, bootBase, progBase, familyId } :=
  .of_parts h.memory (fun ha' => by simp [ha] at ha') h.indexLeTotal h.doneIndex
    (fun hok => { h.bootChecked hok with }) h.noErrorRegisters h.errorCodes

/-- The boot image and its length are free while no pass is active, BOOT_OK being cleared (R46). -/
theorem BlockInv.bootWrite (ha : s.active = false) (bootLen : Word) {mem : Memory} (hm : mem.wf) :
    BlockInv { s with bootLen, mem, bootOk := false } :=
  .of_parts hm (fun ha' => by simp [ha] at ha') h.indexLeTotal h.doneIndex (fun hok => nomatch hok)
    h.noErrorRegisters h.errorCodes

/-- An accepted write keeps the invariant: the lock of R168 leaves an active pass its configuration. -/
theorem BlockInv.writeTarget {u : Target} (w : Word) (hlock : u.access = .rwLocked → s.active = false)
    (hk : ∀ b k, u = .word b k → 4 * k + 4 ≤ b.size) : BlockInv (writeTarget u w s) := by
  cases u with
  | reg r =>
    cases r with
    | ctrl => exact h.configure (hlock rfl) ..
    | bootLen => exact h.bootWrite (hlock rfl) w h.memory
    | progLen => exact h.configure (hlock rfl) ..
    | bootBase => exact h.configure (hlock rfl) ..
    | progBase => exact h.configure (hlock rfl) ..
    | familyId => exact h.configure (hlock rfl) ..
    | cmd => exact { h with }
    | status | errCode | errCmd | crcResult | totalBlocks | blockIndex | regionPos => exact h
  | word b k =>
    have hr := hk b k rfl
    cases b with
    | boot => exact h.bootWrite (hlock rfl) _ (memWrite_wf .boot _ 4 w.toNat s h.memory hr)
    | data => exact h.storeBytes (by decide) (by simpa using hr)
    | out => exact h

/-- Every host transaction keeps the invariant. -/
theorem BlockInv.busTransaction (x : BusTxn) : BlockInv (busTransaction x s) := by
  obtain hx | ⟨_, u, -, -, hx⟩ | ⟨off, w, u, -, hc, hx⟩ := busTransaction_cases x s <;> rw [hx]
  · exact h.respond _
  · obtain ⟨-, -, hr⟩ | ⟨-, hr⟩ := acceptRead_cases u s <;> rw [hr]
    · exact (h.busyDraw _).respond _
    · exact h.respond _
  · obtain ⟨h4, hu, -, -, hlock⟩ := (busCheck_write_ok off s u).mp hc
    refine (h.writeTarget w hlock ?_).respond _
    rintro b k rfl
    exact (busTarget_word off b k h4 hu).2

end Stores

/-! ### The commands' writes -/

/-- INJECT: the field it writes is the CRC of the bytes it leaves (R94). -/
theorem BlockInv.injectChecksum {s : State} (h : BlockInv s) (ha : s.active = false) (hl : s.bootLen = 256#32) :
    BlockInv (injectChecksum s) := by
  refine .of_parts ?_ (fun ha' => by simp [ha] at ha') h.indexLeTotal h.doneIndex (fun _ => ⟨hl, ?_, ?_⟩)
    h.noErrorRegisters h.errorCodes
  · exact memWrite_wf .boot 252 4 _ s h.memory (by decide)
  · rw [checksumValid, bufBytes_injectChecksum_field, bufBytes_injectChecksum_body, leValue_le32]
    rfl
  · rw [bufBytes_injectChecksum_body]
    rfl

/-- CRC_RESULT and BOOT_OK may be set anew to what a check of the boot image gives, if an image whose BOOT_OK
stood, and which an active pass may hold, passes again. -/
theorem BlockInv.recheck {s : State} (h : BlockInv s) {crc : Word} {ok : Bool}
    (hok : ok = true → s.bootLen = 256#32 ∧ checksumValid s ∧ crc = crc32 (bufBytes .boot 0 252 s))
    (hagain : s.bootOk = true → ok = true) : BlockInv { s with crcResult := crc, bootOk := ok } :=
  .of_parts h.memory
    (fun ha => { h.activePass ha with bootOk := fun hB => hagain ((h.activePass ha).bootOk hB) })
    h.indexLeTotal h.doneIndex
    (fun ho => ⟨(hok ho).1, (hok ho).2.1, (hok ho).2.2⟩) h.noErrorRegisters h.errorCodes

/-- VERIFY: BOOT_OK is whether the stored field matches, which it does where BOOT_OK stood (R93). -/
theorem BlockInv.checkChecksum {s : State} (h : BlockInv s) (hl : s.bootLen = 256#32) :
    BlockInv (checkChecksum s) :=
  h.recheck (fun ho => ⟨hl, of_decide_eq_true (p := storedChecksum s = _) ho, rfl⟩)
    fun hb => decide_eq_true (h.bootChecked hb).checksum

/-- REGION_POS 0 is below PROG_LEN, or PROG_LEN is 0: R41's two cases of a region that begins. -/
theorem progLen_pos_or_eq_zero (s : State) : 0 < s.progLen.toNat ∨ s.progLen = 0#32 :=
  (Nat.eq_zero_or_pos s.progLen.toNat).symm.imp_right BitVec.eq_of_toNat_eq

/-- START: the pass begins at its first block, with the checks of R104 as what the invariant asks. -/
theorem BlockInv.beginPass {s : State} (h : BlockInv s) (hs : startAccepted s) : BlockInv (beginPass s) := by
  obtain ⟨hboot, hprog⟩ := hs
  have htotal : (BitVec.ofNat 32 (passBlocks s)).toNat = passBlocks s := by
    have := passBlocks_le s
    rw [BitVec.toNat_ofNat]
    omega
  refine .of_parts h.memory (fun ha => ?_) (Nat.zero_le _) (fun hd => ?_) (fun hok => { h.bootChecked hok with })
    h.noErrorRegisters h.errorCodes
  · have hne : passBlocks s ≠ 0 := by simpa using ha
    exact {
      notDone := by simpa using hne
      indexLt := by rw [beginPass_totalBlocks, htotal]; exact Nat.pos_of_ne_zero hne
      boot := fun hr => ⟨rfl, rfl, by simpa [bootRegionBlocks_eq_one] using hr⟩
      prog := fun _ => ⟨rfl, (progLen_pos_or_eq_zero s).imp_right fun hz => ⟨hz, rfl⟩⟩
      total := htotal
      progIndex := fun hr => by
        have hB : s.bootEn = false := by simpa [bootRegionBlocks_eq_one] using hr
        simp [bootRegionBlocks, hB]
      bootRange := fun hB => (hboot hB).2.2
      progRange := hprog
      bootOk := fun hB => (hboot hB).2.1 }
  · have hzero : passBlocks s = 0 := by simpa using hd
    rw [beginPass_blockIndex, beginPass_totalBlocks, hzero]

/-! ### The program region's blocks -/

/-- A program region without a block has no byte (R100). -/
theorem progLen_of_progRegionBlocks_eq_zero (s : State) (h : progRegionBlocks s = 0) : s.progLen = 0#32 := by
  apply BitVec.eq_of_toNat_eq
  by_contra hne
  rw [progRegionBlocks_pos s (Nat.pos_of_ne_zero hne)] at h
  have : s.progLen.toNat ≠ 0 := hne
  omega

/-- In the program region the block at REGION_POS is the pass's last exactly if it reaches the end of the
program: BLOCK_INDEX counts the 256-byte chunks below REGION_POS. -/
theorem ActivePass.lastBlock_iff {s : State} (h : ActivePass s) (hr : s.region = .prog) :
    s.blockIndex.toNat + 1 = s.totalBlocks.toNat ↔ s.progLen.toNat ≤ s.regionPos.toNat + 256 := by
  obtain ⟨hmod, hpos⟩ := h.prog hr
  have hlt := h.indexLt
  rw [h.total, h.progIndex hr, passBlocks] at *
  rcases Nat.eq_zero_or_pos s.progLen.toNat with hz | hp
  · have he : s.emptyBlk.toNat ≤ 1 := Bool.toNat_le _
    rw [progRegionBlocks_zero s hz] at *
    omega
  · rw [progRegionBlocks_pos s hp] at *
    have : s.regionPos.toNat < s.progLen.toNat := by
      rcases hpos with hpos | ⟨hz, -⟩
      · exact hpos
      · simp [hz] at hp
    omega

/-- The bootloader block is a pass's last exactly if the program region has no block. -/
theorem ActivePass.bootLast_iff {s : State} (h : ActivePass s) (hr : s.region = .boot) :
    s.blockIndex.toNat + 1 = s.totalBlocks.toNat ↔ progRegionBlocks s = 0 := by
  obtain ⟨hi, -, hB⟩ := h.boot hr
  rw [h.total, passBlocks, hi, bootRegionBlocks_eq, hB]
  simp

/-- What the sequencer's move makes of REGION_POS (R103). -/
theorem advance_regionPos_of_boot (s : State) (hr : s.region = .boot) : (advance s).regionPos = 0#32 := by
  rw [advance, hr]

theorem advance_regionPos_of_prog (s : State) (hr : s.region = .prog) :
    (advance s).regionPos = s.regionPos + BitVec.ofNat 32 (min 256 (s.progLen.toNat - s.regionPos.toNat)) := by
  simp only [advance, chunkLen, hr]

/-- A program block that is not the last carries a full chunk. -/
theorem ActivePass.advance_regionPos {s : State} (h : ActivePass s) (hr : s.region = .prog)
    (hn : s.blockIndex.toNat + 1 ≠ s.totalBlocks.toNat) :
    (advance s).regionPos.toNat = s.regionPos.toNat + 256 ∧ s.regionPos.toNat + 256 < s.progLen.toNat := by
  rw [Ne, h.lastBlock_iff hr] at hn
  have hlt := s.progLen.isLt
  have hmin : min 256 (s.progLen.toNat - s.regionPos.toNat) = 256 := by omega
  rw [advance_regionPos_of_prog s hr, hmin, BitVec.toNat_add, BitVec.toNat_ofNat]
  omega

/-- BLOCK_INDEX + 1 does not wrap while a pass is active. -/
theorem ActivePass.blockIndex_succ {s : State} (h : ActivePass s) :
    (s.blockIndex + 1#32).toNat = s.blockIndex.toNat + 1 := by
  have := h.indexLt
  have := s.totalBlocks.isLt
  rw [BitVec.toNat_add, BitVec.toNat_ofNat]
  omega

/-- The next block of a pass that goes on. -/
theorem ActivePass.advance {s : State} (h : ActivePass s)
    (hn : s.blockIndex.toNat + 1 ≠ s.totalBlocks.toNat) : ActivePass (advance s) where
  notDone := by rw [advance_done, if_neg hn, h.notDone]
  indexLt := by
    have := h.indexLt
    rw [advance_blockIndex, advance_totalBlocks, h.blockIndex_succ]
    omega
  boot hr := by simp at hr
  prog _ := by
    rw [advance_progLen]
    cases hr : s.region with
    | boot =>
      rw [advance_regionPos_of_boot s hr]
      exact ⟨rfl, (progLen_pos_or_eq_zero s).imp_right fun hz => ⟨hz, rfl⟩⟩
    | prog =>
      obtain ⟨hpos, hlt⟩ := h.advance_regionPos hr hn
      have hmod := (h.prog hr).1
      rw [hpos]
      exact ⟨by omega, .inl hlt⟩
  total := h.total
  progIndex _ := by
    rw [advance_blockIndex, h.blockIndex_succ,
      show bootRegionBlocks (Machine.advance s) = bootRegionBlocks s from rfl]
    cases hr : s.region with
    | boot =>
      obtain ⟨hi, -, hB⟩ := h.boot hr
      rw [advance_regionPos_of_boot s hr, hi, (bootRegionBlocks_eq_one s).mpr hB]
      rfl
    | prog =>
      rw [(h.advance_regionPos hr hn).1, h.progIndex hr]
      omega
  bootRange := h.bootRange
  progRange := h.progRange
  bootOk := h.bootOk

/-- EMIT's move: on to the next block, or to DONE with BLOCK_INDEX at the total. -/
theorem BlockInv.advance {s : State} (h : BlockInv s) (ha : s.active = true) : BlockInv (advance s) := by
  have hp := h.activePass ha
  have hlt := hp.indexLt
  refine .of_parts h.memory (fun ha' => hp.advance ?_) ?_ (fun hd => ?_) (fun hok => { h.bootChecked hok with })
    h.noErrorRegisters h.errorCodes
  · rintro hlast
    simp [hlast] at ha'
  · rw [advance_blockIndex, advance_totalBlocks, hp.blockIndex_succ]
    exact hlt
  · apply BitVec.eq_of_toNat_eq
    rw [advance_blockIndex, advance_totalBlocks, hp.blockIndex_succ]
    by_contra hne
    simp [hne, hp.notDone] at hd

/-- CLEAR: no pass, no error. -/
theorem BlockInv.clear {s : State} (h : BlockInv s) : BlockInv (clearPass (clearError s)) :=
  .of_parts h.memory (fun ha => nomatch ha) (Nat.le_refl _) (fun hd => nomatch hd)
    (fun hok => { h.bootChecked hok with }) (fun _ => ⟨rfl, rfl⟩) (fun he => nomatch he)

/-! ### Every step -/

/-- Settles O53: after reset nothing is active, done, checked or pending, so only the cleared counters and error
registers and the empty memory are left to look at. -/
theorem resetHasInvariant : Obligations.ResetHasInvariant :=
  .of_parts ⟨.nil, fun _ hc => nomatch hc⟩ (fun ha => nomatch ha) (Nat.le_refl _) (fun hd => nomatch hd)
    (fun hok => nomatch hok) (fun _ => ⟨rfl, rfl⟩) (fun he => nomatch he)

/-- The reset input gives the registers of the reset state; its draws differ, of which only BOOT_OK speaks. -/
theorem blockInv_hardReset (s : State) : BlockInv (hardReset s) :=
  { resetHasInvariant with
    bootOkChecksum := fun hok => nomatch hok
    bootOkResult := fun hok => nomatch hok }

theorem BlockInv.commandWrites {s : State} (h : BlockInv s) {i : Instr} (hi : commandAccepted i s) :
    BlockInv (commandWrites i s) := by
  cases i with
  | inject => exact h.injectChecksum hi.2.1 hi.2.2
  | verify => exact h.checkChecksum hi.2
  | start => exact h.beginPass hi.2.2
  | emit => exact (h.advance hi.2).storeBytes (by decide) (by rw [nextBlock_length]; decide)
  | clear => exact h.clear

theorem BlockInv.exec {s t : State} (h : BlockInv s) {i : Instr} (hx : exec i s = .next t) : BlockInv t := by
  obtain ⟨-, -, rfl⟩ | ⟨-, c, hc, rfl⟩ | ⟨hi, rfl⟩ := exec_cases i s t hx
  · exact h.complete
  · exact h.failedWith (hc.imp_right .inr) _
  · exact (h.commandWrites hi).complete

theorem BlockInv.engineStep {s t : State} (h : BlockInv s) (hx : engineStep s = .next t) : BlockInv t := by
  obtain ⟨i, -, hi⟩ | ⟨-, rfl⟩ | ⟨-, rfl⟩ := engineStep_cases s t hx
  · exact h.exec hi
  · exact h.complete
  · exact h.failedWith (by decide) _

/-- Settles O52: a step is a host transaction, a reset, an idle turn or the engine's step, and each keeps the
invariant. -/
theorem stepKeepsInvariant : Obligations.StepKeepsInvariant := by
  intro s t h hx
  obtain ⟨rest, ⟨x, -, rfl⟩ | ⟨-, rfl⟩ | ⟨-, rfl⟩ | ⟨-, hx⟩⟩ := step_cases s t hx
  · exact (h.agenda rest).busTransaction x
  · exact blockInv_hardReset _
  · exact h.agenda rest
  · exact (h.agenda rest).engineStep hx

/-! ### Reachable states (R41) -/

/-- The invariant holds at reset and every step keeps it, and the host's plan is none of its concern. -/
theorem Reachable.blockInv {s : State} (h : Reachable s) : BlockInv s := by
  induction h with
  | reset => exact resetHasInvariant
  | plan s es _ ih => exact ih.agenda es
  | step s t _ hx ih => exact stepKeepsInvariant s t ih hx

/-- A START that leaves DONE had no block to give, so PROG_LEN and REGION_POS are 0. -/
theorem beginPass_done_regionPos (s : State) (hd : (beginPass s).done = true) :
    (beginPass s).regionPos = (beginPass s).progLen := by
  have hzero : passBlocks s = 0 := by simpa using hd
  exact (progLen_of_progRegionBlocks_eq_zero s (Nat.add_eq_zero_iff.mp hzero).2).symm

/-- The last block's EMIT moves REGION_POS to the end of the program (R41). -/
theorem ActivePass.advance_done_regionPos {s : State} (h : ActivePass s) (hd : (Machine.advance s).done = true) :
    (Machine.advance s).regionPos = (Machine.advance s).progLen := by
  have hlast : s.blockIndex.toNat + 1 = s.totalBlocks.toNat := by
    by_contra hne
    simp [hne, h.notDone] at hd
  apply BitVec.eq_of_toNat_eq
  rw [advance_progLen]
  cases hr : s.region with
  | boot =>
    rw [advance_regionPos_of_boot s hr,
      progLen_of_progRegionBlocks_eq_zero s ((h.bootLast_iff hr).mp hlast)]
  | prog =>
    have hend := (h.lastBlock_iff hr).mp hlast
    have hle : s.regionPos.toNat ≤ s.progLen.toNat := by
      rcases (h.prog hr).2 with hlt | ⟨hz, hp⟩
      · exact hlt.le
      · rw [hz, hp]
    have hlt := s.progLen.isLt
    rw [advance_regionPos_of_prog s hr, BitVec.toNat_add, BitVec.toNat_ofNat]
    omega

/-- Settles O54: invariants 1 to 6 are parts of `BlockInv`, and 7 is what START and EMIT do to REGION_POS
where they set DONE. -/
theorem sequencerInvariantsReachable : Obligations.SequencerInvariantsReachable := by
  intro s hs
  have h := hs.blockInv
  refine ⟨h.notActiveAndDone, h.indexLeTotal, h.activeIndexLt, h.activeBoot, h.activeProg, h.doneIndex, ?_⟩
  rintro i t (rfl | rfl) - hx ht hd -
  · obtain ⟨-, rfl⟩ := exec_of_err_eq_false _ s t hx ht
    exact beginPass_done_regionPos s hd
  · obtain ⟨⟨-, ha⟩, rfl⟩ := exec_of_err_eq_false _ s t hx ht
    exact (h.activePass ha).advance_done_regionPos hd

end Sys2Proof.Machine
end

section
/-! SUPPORT. The proofs of the family of spec/10_state.md on the engine's writes and the sequencer: which fields
each command leaves (R44), and that only START, EMIT, CLEAR and reset move the sequencer (R41, R123). -/

namespace Sys2Proof.Machine

/-! ### The engine's writes (R44) -/

/-- The configuration and DATA_BUF, which no command writes, are the same in both states. -/
structure SameConfiguration (s t : State) : Prop where
  bootEn : t.bootEn = s.bootEn
  emptyBlk : t.emptyBlk = s.emptyBlk
  bootLen : t.bootLen = s.bootLen
  progLen : t.progLen = s.progLen
  bootBase : t.bootBase = s.bootBase
  progBase : t.progBase = s.progBase
  familyId : t.familyId = s.familyId
  dataBuf : ∀ k, k < 256 → byteAt t (0x200 + k) = byteAt s (0x200 + k)

/-- VERIFY's writes but for CRC_RESULT, BOOT_OK and BUSY. -/
theorem verify_frame (s : State) : { complete (commandWrites .verify s) with
    crcResult := s.crcResult, bootOk := s.bootOk, busy := s.busy } = s := by
  rw [commandWrites, checkChecksum, complete]

/-- EMIT's writes leave every byte outside OUT_BUF. -/
theorem byteAt_emit_outside (s : State) (a : Nat) (ha : ¬(0x400 ≤ a ∧ a < 0x600)) :
    byteAt (commandWrites .emit s) a = byteAt s a := by
  rw [commandWrites, byteAt_storeBytes_outside, byteAt_advance]
  rwa [nextBlock_length]

theorem commandWrites_sameConfiguration (i : Instr) (s : State) : SameConfiguration s (commandWrites i s) := by
  cases i with
  | inject =>
    exact ⟨rfl, rfl, rfl, rfl, rfl, rfl, rfl, fun _ _ => byteAt_injectChecksum_outside s _ (by omega)⟩
  | emit => exact ⟨rfl, rfl, rfl, rfl, rfl, rfl, rfl, fun _ _ => byteAt_emit_outside s _ (by omega)⟩
  | verify | start | clear => constructor <;> simp [commandWrites]

theorem exec_sameConfiguration (i : Instr) (s t : State) (h : exec i s = .next t) : SameConfiguration s t := by
  obtain ⟨-, -, rfl⟩ | ⟨-, c, -, rfl⟩ | ⟨-, rfl⟩ := exec_cases i s t h
  · exact ⟨rfl, rfl, rfl, rfl, rfl, rfl, rfl, fun _ _ => rfl⟩
  · exact ⟨rfl, rfl, rfl, rfl, rfl, rfl, rfl, fun _ _ => rfl⟩
  · exact { commandWrites_sameConfiguration i s with }

theorem exec_busy (i : Instr) (s t : State) (h : exec i s = .next t) : t.busy = false := by
  obtain ⟨-, -, rfl⟩ | ⟨-, c, -, rfl⟩ | ⟨-, rfl⟩ := exec_cases i s t h <;> rfl

/-- Settles O35: the configuration is no command's, a raise is `failedWith`, and a command that leaves no error
has made its own writes, whose frame is read off them. -/
theorem engineWritesOnlyTableRows : Obligations.EngineWritesOnlyTableRows := by
  refine ⟨fun i s t h => ?_, fun s t h ht => ?_, fun s t h ht => ?_, fun s t h ht => ?_, fun s t h ht => ?_,
    fun s t h => ?_⟩
  · obtain ⟨h1, h2, h3, h4, h5, h6, h7, h8⟩ := exec_sameConfiguration i s t h
    refine ⟨exec_busy i s t h, h1, h2, h3, h4, h5, h6, h7, h8, fun he ht => ?_⟩
    obtain ⟨c, -, rfl⟩ := exec_raises i s t he h ht
    rfl
  · obtain ⟨-, rfl⟩ := exec_of_err_eq_false _ s t h ht
    exact ⟨byteAt_injectChecksum_outside s, rfl, rfl⟩
  · obtain ⟨-, rfl⟩ := exec_of_err_eq_false _ s t h ht
    exact verify_frame s
  · obtain ⟨-, rfl⟩ := exec_of_err_eq_false _ s t h ht
    exact ⟨rfl, rfl⟩
  · obtain ⟨-, rfl⟩ := exec_of_err_eq_false _ s t h ht
    exact ⟨byteAt_emit_outside s, rfl, fun hl => ⟨if_pos hl, if_pos hl⟩,
      fun hl => ⟨if_neg hl, if_neg hl⟩, rfl⟩
  · obtain rfl := Host.Outcome.next.inj ((exec_clear_eq s).symm.trans h)
    rfl

/-! ### The sequencer (R41, R123) -/

/-- Only CLEAR is accepted while an error is pending (R121). -/
theorem commandAccepted_err (i : Instr) (s : State) (h : commandAccepted i s) (hi : i ≠ .clear) :
    s.err = false := by
  cases i with
  | clear => exact absurd rfl hi
  | inject | verify | start | emit => exact h.1

theorem SameSequencer.refl (s : State) : SameSequencer s s := ⟨rfl, rfl, rfl, rfl, rfl, rfl⟩

theorem sameSequencer_complete (s : State) : SameSequencer s (complete s) := ⟨rfl, rfl, rfl, rfl, rfl, rfl⟩

theorem sameSequencer_failedWith (c : Byte) (w : Word) (s : State) : SameSequencer s (failedWith c w s) :=
  ⟨rfl, rfl, rfl, rfl, rfl, rfl⟩

/-- No register or buffer word the host can write is part of the sequencer. -/
theorem sameSequencer_writeTarget (u : Target) (w : Word) (s : State) : SameSequencer s (writeTarget u w s) := by
  cases u with
  | reg r => cases r <;> exact ⟨rfl, rfl, rfl, rfl, rfl, rfl⟩
  | word b k => cases b <;> exact ⟨rfl, rfl, rfl, rfl, rfl, rfl⟩

theorem sameSequencer_busTransaction (x : BusTxn) (s : State) : SameSequencer s (busTransaction x s) := by
  obtain hx | ⟨_, u, -, -, hx⟩ | ⟨_, w, u, -, -, hx⟩ := busTransaction_cases x s <;> rw [hx]
  · exact { SameSequencer.refl s with }
  · obtain ⟨-, -, hr⟩ | ⟨-, hr⟩ := acceptRead_cases u s <;> rw [hr] <;> exact { SameSequencer.refl s with }
  · exact { sameSequencer_writeTarget u w s with }

/-- A command that is skipped or raises leaves the sequencer; another makes its own writes. -/
theorem exec_sameSequencer_or (i : Instr) (s t : State) (h : exec i s = .next t) :
    SameSequencer s t ∨ commandAccepted i s ∧ t = complete (commandWrites i s) := by
  obtain ⟨-, -, rfl⟩ | ⟨-, c, -, rfl⟩ | hx := exec_cases i s t h
  · exact .inl (sameSequencer_complete s)
  · exact .inl (sameSequencer_failedWith c _ s)
  · exact .inr hx

/-- Of the commands only START, EMIT and CLEAR can move the sequencer. -/
theorem exec_sameSequencer_or_command (i : Instr) (s t : State) (h : exec i s = .next t) :
    SameSequencer s t ∨ i = .start ∨ i = .emit ∨ i = .clear := by
  obtain hs | ⟨-, rfl⟩ := exec_sameSequencer_or i s t h
  · exact .inl hs
  · cases i with
    | inject | verify => exact .inl (by constructor <;> simp [commandWrites])
    | start | emit | clear => exact .inr (by decide)

/-- The engine's step moves the sequencer only where it runs START, EMIT or CLEAR. -/
theorem engineStep_sameSequencer_or (s t : State) (h : engineStep s = .next t) :
    SameSequencer s t ∨
      t.busy = false ∧ ∃ i, s.pendingCmd = encode i ∧ (i = .start ∨ i = .emit ∨ i = .clear) := by
  obtain ⟨i, hw, hi⟩ | ⟨-, rfl⟩ | ⟨-, rfl⟩ := engineStep_cases s t h
  · exact (exec_sameSequencer_or_command i s t hi).imp_right fun hm => ⟨exec_busy i s t hi, i, hw, hm⟩
  · exact .inl (sameSequencer_complete s)
  · exact .inl (sameSequencer_failedWith _ _ s)

/-- The engine's step of an illegal word leaves the sequencer: no command has that word. -/
theorem engineStep_sameSequencer_of_illegal (s t : State) (hw : commandLegal s.pendingCmd = false)
    (h : engineStep s = .next t) : SameSequencer s t := by
  refine (engineStep_sameSequencer_or s t h).resolve_right ?_
  rintro ⟨-, i, hi, -⟩
  simp [hi, commandLegal_encode] at hw

/-- Every step that moves the sequencer is the engine's step of START, EMIT or CLEAR, or a reset. -/
theorem step_sameSequencer_or (s t : State) (h : step s = .next t) : SameSequencer s t ∨
    (s.busy = true ∧ t.busy = false ∧
      (s.pendingCmd = 3#32 ∨ s.pendingCmd = 4#32 ∨ s.pendingCmd = 5#32)) ∨
    ∃ rest, s.agenda = .reset :: rest := by
  obtain ⟨rest, ⟨x, -, rfl⟩ | ⟨hr, -⟩ | ⟨-, rfl⟩ | ⟨hb, hx⟩⟩ := step_cases s t h
  · exact .inl { sameSequencer_busTransaction x { s with agenda := rest } with }
  · exact .inr (.inr ⟨rest, hr⟩)
  · exact .inl ⟨rfl, rfl, rfl, rfl, rfl, rfl⟩
  · obtain hs | ⟨ht, i, hw, hi⟩ := engineStep_sameSequencer_or _ t hx
    · exact .inl { hs with }
    · refine .inr (.inl ⟨hb, ht, ?_⟩)
      obtain rfl | rfl | rfl := hi
      · exact .inl hw
      · exact .inr (.inl hw)
      · exact .inr (.inr hw)

/-- What START leaves the sequencer at (R104). -/
theorem exec_start_sequencer (s t : State) (h : exec .start s = .next t) (ht : t.err = false) :
    s.active = false ∧ t.done = !t.active ∧ t.region = (if s.bootEn then .boot else .prog) ∧
      t.blockIndex = 0#32 ∧ t.regionPos = 0#32 := by
  obtain ⟨⟨-, ha, -⟩, rfl⟩ := exec_of_err_eq_false _ s t h ht
  refine ⟨ha, ?_, ?_, rfl, rfl⟩
  · simp [commandWrites]
  · simp [commandWrites, bootRegionBlocks_eq_one]

/-- What EMIT leaves the sequencer at (R105). -/
theorem exec_emit_sequencer (s t : State) (h : exec .emit s = .next t) (ht : t.err = false) :
    s.active = true ∧ (t.active = true ∨ t.done = true) ∧ t.region = .prog ∧
      t.blockIndex = s.blockIndex + 1#32 ∧ t.totalBlocks = s.totalBlocks := by
  obtain ⟨⟨-, ha⟩, rfl⟩ := exec_of_err_eq_false _ s t h ht
  refine ⟨ha, ?_, rfl, rfl, rfl⟩
  by_cases hlast : s.blockIndex.toNat + 1 = s.totalBlocks.toNat
  · exact .inr (if_pos hlast)
  · exact .inl ((if_neg hlast).trans ha)

/-- Settles O36: host transactions and illegal words, the skip and the raise, and every step by the lemmas
above; then the moves of the commands themselves. -/
theorem sequencerMovesOnlyByCommands : Obligations.SequencerMovesOnlyByCommands := by
  refine ⟨sameSequencer_busTransaction, engineStep_sameSequencer_of_illegal, fun i s t h => ⟨fun he hi => ?_,
    fun he ht => ?_⟩, step_sameSequencer_or, fun s => ⟨fun _ => ⟨?_, ?_, ?_, ?_⟩, ?_⟩⟩
  · obtain ⟨-, -, rfl⟩ | ⟨he', -⟩ | ⟨hacc, -⟩ := exec_cases i s t h
    · exact sameSequencer_complete s
    · simp [he] at he'
    · simp [commandAccepted_err i s hacc hi] at he
  · obtain ⟨c, -, rfl⟩ := exec_raises i s t he h ht
    exact sameSequencer_failedWith c _ s
  · obtain ⟨t, ht⟩ := exec_eq_next .inject s
    exact ⟨t, ht, (exec_sameSequencer_or_command _ s t ht).resolve_right (by decide)⟩
  · obtain ⟨t, ht⟩ := exec_eq_next .verify s
    exact ⟨t, ht, (exec_sameSequencer_or_command _ s t ht).resolve_right (by decide)⟩
  · obtain ⟨t, ht⟩ := exec_eq_next .start s
    exact ⟨t, ht, exec_start_sequencer s t ht⟩
  · obtain ⟨t, ht⟩ := exec_eq_next .emit s
    exact ⟨t, ht, exec_emit_sequencer s t ht⟩
  · exact ⟨_, exec_clear_eq s, rfl, rfl, rfl, rfl, rfl, rfl⟩

end Sys2Proof.Machine
end

section
/-! SUPPORT. The proofs of the family of spec/10_state.md on the registers as the host sees them: the bits of the
flag words (R23 to R26), reads and writes of a register by its offset (R22, R52), and BOOT_OK's clearing (R46). -/

namespace Sys2Proof.Machine

/-! ### Flags in a word (R23, R25, R26) -/

/-- A word's value by its flags, bit 0 first. -/
def flagsValue : List Bool → Nat
  | [] => 0
  | b :: bs => Nat.bit b (flagsValue bs)

theorem testBit_flagsValue (bs : List Bool) (k : Nat) : (flagsValue bs).testBit k = bs.getD k false := by
  induction bs generalizing k with
  | nil => simp [flagsValue]
  | cons b bs ih =>
    cases k with
    | zero => simp [flagsValue]
    | succ k => rw [flagsValue, Nat.testBit_bit_succ, ih]; simp

theorem getLsbD_flags (bs : List Bool) (k : Nat) :
    (BitVec.ofNat 32 (flagsValue bs)).getLsbD k = (decide (k < 32) && bs.getD k false) := by
  rw [BitVec.getLsbD_ofNat, testBit_flagsValue]

theorem extractLsb'_flags (bs : List Bool) (n : Nat) :
    (BitVec.ofNat 32 (flagsValue bs)).extractLsb' bs.length n = 0#n := by
  apply BitVec.eq_of_getLsbD_eq
  intro i hi
  rw [BitVec.getLsbD_extractLsb', getLsbD_flags]
  simp

theorem statusWord_eq_flags (s : State) : statusWord s = BitVec.ofNat 32
    (flagsValue [s.busy, s.active, s.done, s.err, s.bootOk, s.outValid, s.region.toBit]) := by
  rw [statusWord]
  congr 1
  simp only [flagsValue, Nat.bit_val]
  ring

theorem ctrlWord_eq_flags (s : State) :
    ctrlWord s = BitVec.ofNat 32 (flagsValue [s.bootEn, s.emptyBlk]) := by
  rw [ctrlWord]
  congr 1
  simp only [flagsValue, Nat.bit_val]
  ring

theorem Region.toBit_eq (r : Region) : r.toBit = decide (r = .prog) := by
  cases r <;> rfl

theorem extractLsb'_errCodeWord_code (s : State) : (errCodeWord s).extractLsb' 0 8 = s.errCode := by
  apply BitVec.eq_of_getLsbD_eq
  intro i hi
  simp [errCodeWord, hi, show i < 32 by omega]

theorem extractLsb'_errCodeWord_reserved (s : State) : (errCodeWord s).extractLsb' 8 24 = 0#24 := by
  apply BitVec.eq_of_getLsbD_eq
  intro i hi
  simp [errCodeWord]

/-- Settles O40: STATUS and CTRL are the words of their flags, and ERR_CODE is CODE, extended by zeros. -/
theorem statusBitsAsLaidOut : Obligations.StatusBitsAsLaidOut := by
  intro s
  have hstatus := extractLsb'_flags [s.busy, s.active, s.done, s.err, s.bootOk, s.outValid, s.region.toBit] 25
  have hctrl := extractLsb'_flags [s.bootEn, s.emptyBlk] 30
  rw [statusWord_eq_flags, ctrlWord_eq_flags, ← Region.toBit_eq]
  refine ⟨?_, ?_, ?_, ?_, ?_, ?_, ?_, hstatus, ?_, ?_, hctrl, extractLsb'_errCodeWord_code s,
    extractLsb'_errCodeWord_reserved s⟩
  all_goals
    rw [getLsbD_flags]
    simp

/-! ### Registers by offset (R22, R52) -/

theorem busTarget_offset (r : Reg) : busTarget r.offset = some (.reg r) := by cases r <;> rfl

theorem offset_aligned (r : Reg) : r.offset.toNat % 4 = 0 := by cases r <;> rfl

/-- An accepted write answers OKAY with the target's write. -/
theorem busTransaction_write_of_ok (off : Offset) (w : Word) (s : State) (u : Target)
    (hc : busCheck true off s = .ok u) :
    busTransaction (.write off w) s = respond .okayWrite (writeTarget u w s) := by
  simp [busTransaction, busWrite, hc, acceptWrite]

/-- A read of an idle block's register answers its value and changes nothing. -/
theorem busTransaction_read_register (r : Reg) (s : State) (hb : s.busy = false) :
    busTransaction (.read r.offset) s = respond (.okayRead (readRegister r s)) s := by
  have hc := (busCheck_read_ok r.offset s (.reg r)).mpr ⟨offset_aligned r, busTarget_offset r⟩
  simp [busTransaction, busRead, hc, acceptRead, hb, readTarget]

/-- An idle block without an active pass takes every write but a read-only register's. -/
theorem busTransaction_write_register (r : Reg) (w : Word) (s : State) (hb : s.busy = false)
    (ha : s.active = false) (hr : r.access ≠ .ro) :
    busTransaction (.write r.offset w) s = respond .okayWrite (writeRegister r w s) :=
  busTransaction_write_of_ok _ w s (.reg r)
    ((busCheck_write_ok _ s _).mpr ⟨offset_aligned r, busTarget_offset r, hb, hr, fun _ => ha⟩)

/-- Settles O42: each clause is the read of one register. -/
theorem registerReadsByOffset : Obligations.RegisterReadsByOffset := by
  intro s hb
  have read := fun r => busTransaction_read_register r s hb
  exact ⟨read .ctrl, read .cmd, read .status, read .errCode, read .errCmd, read .bootLen, read .progLen,
    read .bootBase, read .progBase, read .familyId, read .crcResult, read .totalBlocks, read .blockIndex,
    read .regionPos⟩

/-- CTRL reads back the two field bits that were written (R23, R45). -/
theorem ctrlWord_writeCtrl (w : Word) (s : State) : ctrlWord (writeCtrl w s) = w &&& 3#32 := by
  apply BitVec.eq_of_getLsbD_eq
  intro i hi
  have hmask : 3#32 = BitVec.ofNat 32 (flagsValue [true, true]) := rfl
  rw [ctrlWord_eq_flags, hmask, BitVec.getLsbD_and, getLsbD_flags, getLsbD_flags]
  match i with
  | 0 | 1 => simp [writeCtrl]
  | i + 2 => simp

/-- A write to an idle block's register, read back in the state it leaves. -/
theorem write_then_read_register (r : Reg) (w v : Word) (s : State) (hb : s.busy = false)
    (ha : s.active = false) (hr : r.access = .rwLocked) (hv : readRegister r (writeRegister r w s) = v) :
    ∃ t, busTransaction (.write r.offset w) s = respond .okayWrite t ∧
      busTransaction (.read r.offset) t = respond (.okayRead v) t := by
  have hbusy : (writeRegister r w s).busy = false := by
    cases r with
    | ctrl | bootLen | progLen | bootBase | progBase | familyId => exact hb
    | cmd | status | errCode | errCmd | crcResult | totalBlocks | blockIndex | regionPos => cases hr
  exact ⟨_, busTransaction_write_register r w s hb ha (by simp [hr]),
    hv ▸ busTransaction_read_register r _ hbusy⟩

/-- Settles O41: the accepted write of each register, and the read that follows it. -/
theorem registersReadBackWrites : Obligations.RegistersReadBackWrites := by
  intro s w hb ha
  have write := fun r => busTransaction_write_register r w s hb ha
  have back := fun r v => write_then_read_register r w v s hb ha
  refine ⟨write .ctrl (by decide), write .bootLen (by decide), write .progLen (by decide),
    write .bootBase (by decide), write .progBase (by decide), write .familyId (by decide),
    back .ctrl _ rfl (ctrlWord_writeCtrl w s), ?_, busTransaction_read_register .cmd s hb⟩
  simp only [List.forall_mem_cons, List.not_mem_nil, false_imp_iff, implies_true, and_true]
  exact ⟨back .bootLen w rfl rfl, back .progLen w rfl rfl, back .bootBase w rfl rfl, back .progBase w rfl rfl,
    back .familyId w rfl rfl⟩

/-! ### BOOT_OK (R46) -/

/-- Every offset of BOOT_BUF names one of its words. -/
theorem busTarget_of_boot_offset (off : Offset) (h : 0x100 ≤ off.toNat ∧ off.toNat < 0x200) :
    busTarget off = some (.word .boot ((off.toNat - 0x100) / 4)) := by
  have hreg : registerAt off.toNat = none := by
    unfold registerAt
    split
    case h_15 => rfl
    all_goals omega
  have hwin : windowAt off.toNat = some .boot := if_pos ⟨h.1, by omega⟩
  simp [busTarget, hreg, hwin]

/-- Settles O44: an accepted write of the two targets clears BOOT_OK, and a refused one changes nothing. -/
theorem bootWritesClearBootOk : Obligations.BootWritesClearBootOk := by
  refine fun off w s => ⟨fun h4 hoff hb ha => ?_, fun hr => ?_⟩
  · rcases hoff with rfl | hoff
    · have hx := busTransaction_write_register .bootLen w s hb ha (by decide)
      rw [show 0x014#12 = Reg.bootLen.offset from rfl, hx]
      exact ⟨rfl, rfl⟩
    · have hc := (busCheck_write_ok off s _).mpr
        ⟨h4, busTarget_of_boot_offset off hoff, hb, by simp [Target.access], fun _ => ha⟩
      rw [busTransaction_write_of_ok off w s _ hc]
      exact ⟨rfl, rfl⟩
  · obtain hx | ⟨_, _, hw, -⟩ | ⟨_, _, u, -, -, hx⟩ := busTransaction_cases (.write off w) s
    · rw [hx, respond_bootOk]
    · cases hw
    · rw [hx] at hr
      cases (List.cons.inj hr).1

end Sys2Proof.Machine
end

section
/-! SUPPORT. The proofs of the family of spec/20_memory.md on one bus transaction: when it is refused (R58),
what it answers (R53, R56, R59), and what it changes (R57, R64). -/

namespace Sys2Proof.Machine

/-! ### The checks of R58, one lemma per condition -/

section Checks

variable {off : Offset} {s : State} {u : Target}

theorem busCheck_of_misaligned (wr : Bool) (h : off.toNat % 4 ≠ 0) :
    busCheck wr off s = .error .misaligned := if_pos h

theorem busCheck_of_unmapped (wr : Bool) (h4 : off.toNat % 4 = 0) (hm : mappedOffset off.toNat = false) :
    busCheck wr off s = .error .unmapped := by
  simp [busCheck, h4, (busTarget_none_iff off h4).mpr hm]

theorem exists_busTarget_of_mapped (h4 : off.toNat % 4 = 0) (hm : mappedOffset off.toNat = true) :
    ∃ u, busTarget off = some u := by
  rw [← Option.ne_none_iff_exists', ne_eq, busTarget_none_iff off h4, hm]
  decide

theorem mapped_of_busTarget (h4 : off.toNat % 4 = 0) (hu : busTarget off = some u) :
    mappedOffset off.toNat = true := by
  rw [← Bool.not_eq_false, ← busTarget_none_iff off h4, hu]
  simp

theorem busCheck_write_of_busy (h4 : off.toNat % 4 = 0) (hu : busTarget off = some u) (hb : s.busy = true) :
    busCheck true off s = .error .writeWhileBusy := by
  simp [busCheck, h4, hu, hb]

theorem busCheck_write_of_readOnly (h4 : off.toNat % 4 = 0) (hu : busTarget off = some u)
    (hb : s.busy = false) (hr : u.access = .ro) : busCheck true off s = .error .writeReadOnly := by
  simp [busCheck, h4, hu, hb, hr]

theorem busCheck_write_of_locked (h4 : off.toNat % 4 = 0) (hu : busTarget off = some u)
    (hb : s.busy = false) (hl : u.access = .rwLocked) (ha : s.active = true) :
    busCheck true off s = .error .writeLocked := by
  simp [busCheck, h4, hu, hb, hl, ha]

/-- The checks read the block's flags only, not the host's log. -/
@[simp] theorem busCheck_respond (wr : Bool) (off : Offset) (r : BusResponse) (s : State) :
    busCheck wr off (respond r s) = busCheck wr off s := rfl

/-! ### The transaction by its check -/

theorem busTransaction_read_of_ok (hc : busCheck false off s = .ok u) :
    busTransaction (.read off) s = acceptRead u s := by
  simp [busTransaction, busRead, hc]

theorem busTransaction_read_of_refused (h : ∀ u, busCheck false off s ≠ .ok u) :
    busTransaction (.read off) s = respond .error s := by
  cases hc : busCheck false off s with
  | error e => simp [busTransaction, busRead, hc]
  | ok u => exact absurd hc (h u)

theorem busTransaction_write_of_refused (w : Word) (h : ∀ u, busCheck true off s ≠ .ok u) :
    busTransaction (.write off w) s = respond .error s := by
  cases hc : busCheck true off s with
  | error e => simp [busTransaction, busWrite, hc]
  | ok u => exact absurd hc (h u)

/-- An idle block answers an accepted read with the value, and changes nothing. -/
theorem busTransaction_read_of_idle (hc : busCheck false off s = .ok u) (hb : s.busy = false) :
    busTransaction (.read off) s = respond (.okayRead (readTarget u s)) s := by
  simp [busTransaction_read_of_ok hc, acceptRead, hb]

end Checks

/-- A write's effect is the block's: the host's plan and log stay. -/
theorem writeTarget_host (u : Target) (w : Word) (s : State) :
    (writeTarget u w s).agenda = s.agenda ∧ (writeTarget u w s).responses = s.responses := by
  cases u with
  | reg r => cases r <;> exact ⟨rfl, rfl⟩
  | word b k => cases b <;> exact ⟨rfl, rfl⟩

/-! ### Refusals (R56, R58) -/

/-- Settles O37: the five conditions by the lemmas above; a refused transaction by what its check's acceptance
would say, and every other by that acceptance. -/
theorem busErrorExactlyWhenRefused : Obligations.BusErrorExactlyWhenRefused := by
  intro off s
  refine ⟨fun wr => busCheck_of_misaligned wr, fun wr => busCheck_of_unmapped wr, fun h4 hm => ?_, fun h => ?_,
    fun h4 hm => ?_, fun w => ⟨fun h => ?_, fun h4 hm hb hr hl => ?_⟩⟩
  · obtain ⟨u, hu⟩ := exists_busTarget_of_mapped h4 hm
    exact ⟨busCheck_write_of_busy h4 hu,
      fun hb hr => busCheck_write_of_readOnly h4 hu hb ((busTarget_readOnly off u h4 hu).mpr hr),
      fun hb hl => busCheck_write_of_locked h4 hu hb ((busTarget_locked off u h4 hu).mpr hl)⟩
  · refine busTransaction_read_of_refused fun u hc => ?_
    obtain ⟨h4, hu⟩ := (busCheck_read_ok off s u).mp hc
    simp [h4, mapped_of_busTarget h4 hu] at h
  · obtain ⟨u, hu⟩ := exists_busTarget_of_mapped h4 hm
    rw [busTransaction_read_of_ok ((busCheck_read_ok off s u).mpr ⟨h4, hu⟩)]
    obtain ⟨-, -, hx⟩ | ⟨-, hx⟩ := acceptRead_cases u s <;> rw [hx] <;> exact ⟨_, rfl⟩
  · refine busTransaction_write_of_refused w fun u hc => ?_
    obtain ⟨h4, hu, hb, hr, hl⟩ := (busCheck_write_ok off s u).mp hc
    rw [ne_eq, busTarget_readOnly off u h4 hu] at hr
    rw [busTarget_locked off u h4 hu] at hl
    obtain hmis | hunmapped | hbusy | hro | ⟨hlock, hact⟩ := h
    · exact hmis h4
    · simp [mapped_of_busTarget h4 hu] at hunmapped
    · simp [hb] at hbusy
    · exact hr hro
    · simp [hl hlock] at hact
  · obtain ⟨u, hu⟩ := exists_busTarget_of_mapped h4 hm
    have hc : busCheck true off s = .ok u := by
      rw [busCheck_write_ok, ne_eq, busTarget_readOnly off u h4 hu, busTarget_locked off u h4 hu]
      exact ⟨h4, hu, hb, by simp [hr], fun hlock => hl.resolve_left (by simp [hlock])⟩
    rw [busTransaction_write_of_ok off w s u hc]
    obtain ⟨-, hlog⟩ := writeTarget_host u w s
    rw [respond_responses, hlog]

/-- Settles O38: the model answers a narrow access with ERROR by definition (R56). -/
theorem narrowAccessIsBusError : Obligations.NarrowAccessIsBusError := fun _ _ => rfl

/-! ### Reads while BUSY = 1 (R59) -/

/-- Only a register's own offset names it (R52). -/
theorem eq_offset_of_busTarget (off : Offset) (r : Reg) (h : busTarget off = some (.reg r)) : off = r.offset := by
  have hreg : registerAt off.toNat = some r := by
    cases hr : registerAt off.toNat with
    | none => simp [busTarget, hr] at h
    | some q => simpa [busTarget, hr] using h
  apply BitVec.eq_of_toNat_eq
  unfold registerAt at hreg
  split at hreg
  case h_15 => cases hreg
  all_goals
    cases hreg
    assumption

/-- STATUS reads exactly, BUSY or not, and its read changes nothing. -/
theorem busTransaction_read_status (s : State) :
    busTransaction (.read 0x008#12) s = respond (.okayRead (statusWord s)) s := by
  have hc : busCheck false Reg.status.offset s = .ok (.reg .status) :=
    (busCheck_read_ok _ s _).mpr ⟨offset_aligned .status, busTarget_offset .status⟩
  exact (busTransaction_read_of_ok hc).trans (by simp [acceptRead, readTarget, readRegister])

/-- Settles O39: STATUS is read exactly, and no other offset names STATUS, so every other read takes a draw. -/
theorem readsWhileBusyReturnDraws : Obligations.ReadsWhileBusyReturnDraws := by
  refine fun off s hb => ⟨busTransaction_read_status s, fun h4 hm hoff => ?_⟩
  obtain ⟨u, hu⟩ := exists_busTarget_of_mapped h4 hm
  have hne : u ≠ .reg .status := by
    rintro rfl
    exact hoff (eq_offset_of_busTarget off .status hu)
  rw [busTransaction_read_of_ok ((busCheck_read_ok off s u).mpr ⟨h4, hu⟩), acceptRead]
  simp [hb, hne]

/-! ### Words of the buffer windows (R53) -/

theorem registerAt_eq_none (n : Nat) (h : 0x038 ≤ n) : registerAt n = none := by
  unfold registerAt
  split
  case h_15 => rfl
  all_goals omega

theorem windowAt_of_lt_size (b : Buffer) (j : Nat) (h : j < b.size) : windowAt (b.base + j) = some b := by
  cases b with
  | boot =>
    have hj : j < 256 := h
    rw [base_boot, windowAt, if_pos (by omega)]
  | data =>
    have hj : j < 256 := h
    rw [base_data, windowAt, if_neg (by omega), if_pos (by omega)]
  | out =>
    have hj : j < 512 := h
    rw [base_out, windowAt, if_neg (by omega), if_neg (by omega), if_pos (by omega)]

section WindowWord

variable {b : Buffer} {k : Nat} (h : 4 * k < b.size)
include h

theorem toNat_wordOffset : (b.wordOffset k).toNat = b.base + 4 * k := by
  rw [Buffer.wordOffset, BitVec.toNat_ofNat]
  cases b <;> simp only [Buffer.base, Buffer.size] at * <;> omega

theorem wordOffset_aligned : (b.wordOffset k).toNat % 4 = 0 := by
  rw [toNat_wordOffset h]
  cases b <;> simp only [Buffer.base] <;> omega

theorem busTarget_wordOffset : busTarget (b.wordOffset k) = some (.word b k) := by
  have hbase : 0x100 ≤ b.base := by cases b <;> decide
  rw [busTarget, toNat_wordOffset h, registerAt_eq_none _ (by omega), windowAt_of_lt_size b _ h]
  simp

/-- An idle block's window word reads as `MemRead(BUF, 4k, 4)`. -/
theorem busTransaction_read_wordOffset (s : State) (hb : s.busy = false) :
    busTransaction (.read (b.wordOffset k)) s = respond (.okayRead (BitVec.ofNat 32 (memRead b (4 * k) 4 s))) s :=
  busTransaction_read_of_idle ((busCheck_read_ok _ s _).mpr ⟨wordOffset_aligned h, busTarget_wordOffset h⟩) hb

/-- An idle block takes a write of a word of BOOT_BUF or DATA_BUF that no pass locks. -/
theorem busTransaction_write_wordOffset (w : Word) (s : State) (hb : s.busy = false) (hout : b ≠ .out)
    (hlock : b = .boot → s.active = false) :
    busTransaction (.write (b.wordOffset k) w) s = respond .okayWrite (writeTarget (.word b k) w s) := by
  refine busTransaction_write_of_ok _ w s _ ((busCheck_write_ok _ s _).mpr
    ⟨wordOffset_aligned h, busTarget_wordOffset h, hb, ?_, ?_⟩)
  · cases b with
    | boot | data => nofun
    | out => exact absurd rfl hout
  · cases b with
    | boot => exact fun _ => hlock rfl
    | data | out => nofun

end WindowWord

/-- A write of a word of BOOT_BUF or DATA_BUF stores its bytes. -/
theorem byteAt_writeTarget_word (b : Buffer) (k : Nat) (w : Word) (s : State) (hout : b ≠ .out) (a : Nat) :
    byteAt (writeTarget (.word b k) w s) a = byteAt (storeBytes b (4 * k) (le32 w) s) a := by
  cases b with
  | boot | data => rfl
  | out => exact absurd rfl hout

/-- A write of a window word changes only memory and BOOT_OK. -/
theorem writeTarget_word_frame (b : Buffer) (k : Nat) (w : Word) (s : State) :
    { writeTarget (.word b k) w s with mem := s.mem, bootOk := s.bootOk } = s := by
  cases b <;> rfl

theorem memRead_writeTarget_word (b : Buffer) (k : Nat) (w : Word) (s : State) (hout : b ≠ .out) :
    memRead b (4 * k) 4 (writeTarget (.word b k) w s) = w.toNat := by
  cases b with
  | boot => exact memRead_memWrite_word .boot (4 * k) w s
  | data => exact memRead_memWrite_word .data (4 * k) w s
  | out => exact absurd rfl hout

/-- Settles O43: the write is the store of the word's four bytes, which read back as that word. -/
theorem windowWordsLittleEndian : Obligations.WindowWordsLittleEndian := by
  refine fun b k s hk hb => ⟨busTransaction_read_wordOffset hk s hb, fun w hout hlock =>
    ⟨_, busTransaction_write_wordOffset hk w s hb hout hlock, fun j hj => ?_, fun a ha => ?_,
      writeTarget_word_frame b k w s, ?_, ?_⟩⟩
  · rw [byteAt_writeTarget_word b k w s hout]
    exact (byteAt_storeBytes_inside b (4 * k) (le32 w) s j (by simpa using hj)).trans (le32_getElem w j hj)
  · rw [byteAt_writeTarget_word b k w s hout]
    exact byteAt_storeBytes_outside b (4 * k) (le32 w) s a (by simpa using ha)
  · rintro rfl
    rfl
  · have hbusy : (writeTarget (.word b k) w s).busy = false :=
      (congrArg State.busy (writeTarget_word_frame b k w s)).trans hb
    refine (busTransaction_read_wordOffset hk _ hbusy).trans ?_
    rw [memRead_writeTarget_word b k w s hout, BitVec.ofNat_toNat, BitVec.setWidth_eq]

/-! ### Reads are inert, writes idempotent (R57), and a busy block ignores the host (R64) -/

@[simp] theorem blockState_respond (r : BusResponse) (s : State) :
    blockState (respond r s) = blockState s := rfl

@[simp] theorem blockState_acceptRead (u : Target) (s : State) :
    blockState (acceptRead u s) = blockState s := by
  obtain ⟨-, -, hr⟩ | ⟨-, hr⟩ := acceptRead_cases u s <;> rw [hr] <;> rfl

/-- A transaction other than an accepted write leaves the block. -/
theorem blockState_busTransaction_or (x : BusTxn) (s : State) : blockState (busTransaction x s) = blockState s ∨
    ∃ off w u, x = .write off w ∧ busCheck true off s = .ok u := by
  obtain hx | ⟨_, u, -, -, hx⟩ | ⟨off, w, u, hw, hc, -⟩ := busTransaction_cases x s
  · exact .inl (by rw [hx, blockState_respond])
  · exact .inl (by rw [hx, blockState_acceptRead])
  · exact .inr ⟨off, w, u, hw, hc⟩

/-- Settles O47: no write is accepted while BUSY = 1. -/
theorem busyBlockIgnoresHost : Obligations.BusyBlockIgnoresHost := by
  refine fun x s hb => (blockState_busTransaction_or x s).resolve_right ?_
  rintro ⟨off, w, u, -, hc⟩
  obtain ⟨-, -, hidle, -⟩ := (busCheck_write_ok off s u).mp hc
  simp [hb] at hidle

theorem writeTarget_respond (u : Target) (w : Word) (r : BusResponse) (s : State) :
    writeTarget u w (respond r s) = respond r (writeTarget u w s) := by
  cases u with
  | reg r => cases r <;> rfl
  | word b k => cases b <;> rfl

/-- An accepted write's effect, made twice, is its effect made once: CMD's among them, but that its second write
is refused (R57). -/
theorem writeTarget_writeTarget (u : Target) (w : Word) (s : State) :
    writeTarget u w (writeTarget u w s) = writeTarget u w s := by
  cases u with
  | reg r => cases r <;> rfl
  | word b k =>
    have hmem := writeBytes_writeBytes s.mem (b.base + 4 * k) (le32 w) (le32 w) rfl
    cases b with
    | boot => exact congrArg (fun m => { s with mem := m, bootOk := false }) hmem
    | data => exact congrArg (fun m => { s with mem := m }) hmem
    | out => rfl

/-- A write, repeated, leaves the block as one write leaves it: if the first is accepted, the second is refused or
names the same target; if the first is refused, so is the second. -/
theorem blockState_write_write (off : Offset) (w : Word) (s : State) :
    blockState (busTransaction (.write off w) (busTransaction (.write off w) s)) =
      blockState (busTransaction (.write off w) s) := by
  by_cases hacc : ∃ u, busCheck true off s = .ok u
  · obtain ⟨u, hu⟩ := hacc
    rw [busTransaction_write_of_ok off w s u hu]
    obtain hsame | ⟨_, _, v, hx, hv⟩ :=
      blockState_busTransaction_or (.write off w) (respond .okayWrite (writeTarget u w s))
    · exact hsame
    · obtain ⟨rfl, rfl⟩ := BusTxn.write.inj hx
      obtain ⟨-, htu, -⟩ := (busCheck_write_ok off s u).mp hu
      obtain ⟨-, htv, -⟩ := (busCheck_write_ok off _ v).mp hv
      obtain rfl : u = v := Option.some.inj (htu.symm.trans htv)
      rw [busTransaction_write_of_ok off w _ u hv, writeTarget_respond, writeTarget_writeTarget]
      rfl
  · have hrefused := not_exists.mp hacc
    rw [busTransaction_write_of_refused w hrefused,
      busTransaction_write_of_refused (s := respond .error s) w hrefused, blockState_respond]

/-- CMD takes any word while BUSY = 0, an active pass or not (R120). -/
theorem busCheck_write_cmd (s : State) (hb : s.busy = false) : busCheck true 0x004#12 s = .ok (.reg .cmd) :=
  (busCheck_write_ok _ s _).mpr ⟨offset_aligned .cmd, busTarget_offset .cmd, hb, nofun, nofun⟩

/-- Settles O46: a read is no accepted write; a write repeated by the lemma above; and CMD's write leaves BUSY = 1,
in which the next one is refused. -/
theorem readsInertWritesIdempotent : Obligations.ReadsInertWritesIdempotent := by
  refine ⟨fun off s => (blockState_busTransaction_or _ s).resolve_right ?_,
    fun off w s _ => blockState_write_write off w s,
    fun w v s hb => ⟨_, busTransaction_write_of_ok _ w s _ (busCheck_write_cmd s hb), rfl, ?_⟩⟩
  · rintro ⟨_, _, _, hx, -⟩
    cases hx
  · refine busTransaction_write_of_refused v fun u hc => ?_
    obtain ⟨-, -, hidle, -⟩ := (busCheck_write_ok _ _ u).mp hc
    cases hidle

end Sys2Proof.Machine
end

section
/-! SUPPORT. The proofs of the family of spec/20_memory.md on the interleaving of host and engine (R60): every step
gives a next state, a host step is one transaction with one response, BUSY falls only by the engine's step or a
reset, and a byte stays until a step stores at it (R53, R67). -/

namespace Sys2Proof.Machine

/-! ### The step by its event (R60) -/

section Events

variable {s : State} {rest : List Event}

theorem step_of_host {x : BusTxn} (h : s.agenda = .host x :: rest) :
    step s = .next (busTransaction x { s with agenda := rest }) := by
  simp only [step, h]

theorem step_of_engineTurn (h : s.agenda = .engineTurn :: rest) :
    step s = engineTurn { s with agenda := rest } := by
  simp only [step, h]

theorem step_of_reset (h : s.agenda = .reset :: rest) : step s = .next (hardReset { s with agenda := rest }) := by
  simp only [step, h]

theorem step_of_nil (h : s.agenda = []) : step s = engineTurn s := by
  simp only [step, h]

theorem engineTurn_of_busy (hb : s.busy = true) : engineTurn s = engineStep s := if_pos hb

theorem engineTurn_of_idle (hb : s.busy = false) : engineTurn s = .next s := if_neg (by simp [hb])

end Events

/-- The engine's step gives a next state whatever word is latched. -/
theorem engineStep_eq_next (s : State) : ∃ t, engineStep s = .next t := by
  unfold engineStep
  split
  next i _ => exact exec_eq_next i s
  next => exact ⟨_, rfl⟩

theorem engineTurn_eq_next (s : State) : ∃ t, engineTurn s = .next t := by
  cases hb : s.busy with
  | true => exact engineTurn_of_busy hb ▸ engineStep_eq_next s
  | false => exact ⟨s, engineTurn_of_idle hb⟩

/-- Settles O7: event by event. -/
theorem everyStepGivesNextState : Obligations.EveryStepGivesNextState := by
  intro s
  match ha : s.agenda with
  | .host x :: rest => exact ⟨_, step_of_host ha⟩
  | .engineTurn :: rest => exact step_of_engineTurn ha ▸ engineTurn_eq_next _
  | .reset :: rest => exact ⟨_, step_of_reset ha⟩
  | [] => exact step_of_nil ha ▸ engineTurn_eq_next s

/-! ### One response per transaction (R50) -/

@[simp] theorem busTransaction_agenda (x : BusTxn) (s : State) : (busTransaction x s).agenda = s.agenda := by
  obtain hx | ⟨_, u, -, -, hx⟩ | ⟨_, w, u, -, -, hx⟩ := busTransaction_cases x s <;> rw [hx]
  · rfl
  · obtain ⟨-, -, hr⟩ | ⟨-, hr⟩ := acceptRead_cases u s <;> rw [hr] <;> rfl
  · exact (writeTarget_host u w s).1

theorem busTransaction_responses (x : BusTxn) (s : State) :
    ∃ r, (busTransaction x s).responses = r :: s.responses := by
  obtain hx | ⟨_, u, -, -, hx⟩ | ⟨_, w, u, -, -, hx⟩ := busTransaction_cases x s <;> rw [hx]
  · exact ⟨_, rfl⟩
  · obtain ⟨-, -, hr⟩ | ⟨-, hr⟩ := acceptRead_cases u s <;> rw [hr] <;> exact ⟨_, rfl⟩
  · exact ⟨.okayWrite, congrArg _ (writeTarget_host u w s).2⟩

/-- Settles O8: the step is the transaction, which answers once and leaves the plan. -/
theorem hostStepCompletesTransaction : Obligations.HostStepCompletesTransaction := fun s x rest h =>
  ⟨step_of_host h, busTransaction_agenda x _, busTransaction_responses x { s with agenda := rest }⟩

/-! ### BUSY and the poll (R60, R61, R64) -/

/-- Every engine step ends with BUSY = 0 (R121). -/
theorem engineStep_busy (s t : State) (h : engineStep s = .next t) : t.busy = false := by
  obtain ⟨i, -, hi⟩ | ⟨-, rfl⟩ | ⟨-, rfl⟩ := engineStep_cases s t h
  · exact exec_busy i s t hi
  · rfl
  · rfl

/-- No host transaction ends BUSY. -/
theorem busTransaction_busy_of_busy (x : BusTxn) (s : State) (hb : s.busy = true) :
    (busTransaction x s).busy = true :=
  (congrArg State.busy (busyBlockIgnoresHost x s hb)).trans hb

/-- No host transaction replaces a latched command. -/
theorem busTransaction_pendingCmd_of_busy (x : BusTxn) (s : State) (hb : s.busy = true) :
    (busTransaction x s).pendingCmd = s.pendingCmd :=
  (congrArg State.pendingCmd (busyBlockIgnoresHost x s hb) :)

/-- Settles O48: of the events only a host transaction leaves BUSY = 1, and it leaves the block. -/
theorem busyPollSynchronises : Obligations.BusyPollSynchronises := by
  intro s t hb h
  have hpoll : ∃ v : Word, busTransaction (.read 0x008#12) t = respond (.okayRead v) t ∧ v.getLsbD 0 = t.busy :=
    ⟨statusWord t, busTransaction_read_status t, (statusBitsAsLaidOut t).1⟩
  obtain ⟨rest, ⟨x, ha, rfl⟩ | ⟨ha, rfl⟩ | ⟨hidle, -⟩ | ⟨-, hx⟩⟩ := step_cases s t h
  · have hblock := busyBlockIgnoresHost x { s with agenda := rest } hb
    have hword := busTransaction_pendingCmd_of_busy x { s with agenda := rest } hb
    have hbusy := busTransaction_busy_of_busy x { s with agenda := rest } hb
    exact ⟨fun _ => ⟨hblock, hword, x, rest, ha, rfl⟩, fun hn => by simp [hbusy] at hn, hpoll⟩
  · exact ⟨nofun, fun _ => .inr ⟨rest, ha⟩, hpoll⟩
  · simp [hb] at hidle
  · have hdone := engineStep_busy _ t hx
    exact ⟨fun hn => by simp [hdone] at hn, fun _ => .inl ⟨rest, hx⟩, hpoll⟩

/-! ### Fairness (R171) -/

/-- BUSY is 0 after at most `n` steps. -/
def BusyFallsWithin (n : Nat) (s : State) : Prop :=
  ∃ (k : Nat) (t : State), k ≤ n ∧ core.run k s = .next t ∧ t.busy = false

theorem BusyFallsWithin.succ {n : Nat} {s t : State} (h : step s = .next t) (ht : BusyFallsWithin n t) :
    BusyFallsWithin (n + 1) s := by
  obtain ⟨k, u, hk, hrun, hu⟩ := ht
  exact ⟨k + 1, u, Nat.succ_le_succ hk, (run_succ_of_next k s t h).trans hrun, hu⟩

theorem BusyFallsWithin.of_step {s t : State} (n : Nat) (h : step s = .next t) (ht : t.busy = false) :
    BusyFallsWithin (n + 1) s :=
  .succ h ⟨0, t, Nat.zero_le n, run_zero t, ht⟩

/-- A step that gives the engine its turn ends BUSY. -/
theorem BusyFallsWithin.of_engineTurn {s u : State} (n : Nat) (h : step s = engineTurn u) (hb : u.busy = true) :
    BusyFallsWithin (n + 1) s := by
  obtain ⟨t, ht⟩ := engineStep_eq_next u
  exact .of_step n (h.trans ((engineTurn_of_busy hb).trans ht)) (engineStep_busy u t ht)

/-- A busy block's engine step comes once the plan is used up, if BUSY has not fallen before. -/
theorem busyFallsWithin_agenda (es : List Event) (s : State) (ha : s.agenda = es) (hb : s.busy = true) :
    BusyFallsWithin (es.length + 1) s := by
  induction es generalizing s with
  | nil => exact .of_engineTurn _ (step_of_nil ha) hb
  | cons e rest ih =>
    cases e with
    | host x =>
      exact .succ (step_of_host ha) (ih _ (busTransaction_agenda x _) (busTransaction_busy_of_busy x _ hb))
    | engineTurn => exact .of_engineTurn _ (step_of_engineTurn ha) hb
    | reset => exact .of_step _ (step_of_reset ha) rfl

/-- A planned STATUS read of a busy block answers STATUS and changes nothing else. -/
theorem step_of_status_read {s : State} {rest : List Event} (h : s.agenda = .host (.read 0x008#12) :: rest) :
    step s = .next (respond (.okayRead (statusWord s)) { s with agenda := rest }) := by
  rw [step_of_host h, busTransaction_read_status]
  rfl

/-- `n` planned polls of a busy block all answer the same STATUS. -/
theorem run_polls (n : Nat) (s : State) (hb : s.busy = true)
    (ha : s.agenda = List.replicate n (.host (.read 0x008#12))) :
    ∃ t : State, core.run n s = .next t ∧ t.busy = true ∧
      t.responses = List.replicate n (.okayRead (statusWord s)) ++ s.responses := by
  induction n generalizing s with
  | zero => exact ⟨s, run_zero s, hb, rfl⟩
  | succ n ih =>
    obtain ⟨t, hrun, hbusy, hlog⟩ := ih (respond (.okayRead (statusWord s))
      { s with agenda := List.replicate n (.host (.read 0x008#12)) }) hb rfl
    refine ⟨t, (run_succ_of_next n s _ (step_of_status_read ha)).trans hrun, hbusy, hlog.trans ?_⟩
    rw [List.replicate_succ', List.append_assoc]
    rfl

/-- Settles O55: the engine's step comes by the end of the plan, and polls alone put it off for as long as they are
planned. -/
theorem engineStepEventuallyOccurs : Obligations.EngineStepEventuallyOccurs :=
  ⟨fun s hb => busyFallsWithin_agenda s.agenda s rfl hb, run_polls⟩

/-! ### Stores (R53, R67) -/

/-- INJECT and EMIT store where `engineStoresAt` says, and no other command stores. -/
theorem byteAt_commandWrites_outside (i : Instr) (s : State) (a : Nat) (hb : s.busy = true)
    (hw : s.pendingCmd = encode i) (hi : commandAccepted i s) (ha : ¬engineStoresAt a s) :
    byteAt (commandWrites i s) a = byteAt s a := by
  cases i with
  | inject =>
    obtain ⟨he, hidle, hlen⟩ := hi
    exact byteAt_injectChecksum_outside s a fun hr => ha ⟨hb, he, .inl ⟨hw, hidle, hlen, hr⟩⟩
  | emit =>
    obtain ⟨he, hact⟩ := hi
    exact byteAt_emit_outside s a fun hr => ha ⟨hb, he, .inr ⟨hw, hact, hr⟩⟩
  | verify | start | clear => rfl

/-- The engine's turn leaves every byte at which it does not store. -/
theorem byteAt_engineTurn_outside (s t : State) (a : Nat) (h : engineTurn s = .next t)
    (ha : ¬engineStoresAt a s) : byteAt t a = byteAt s a := by
  cases hb : s.busy with
  | false =>
    obtain rfl := Host.Outcome.next.inj ((engineTurn_of_idle hb).symm.trans h)
    rfl
  | true =>
    rw [engineTurn_of_busy hb] at h
    obtain ⟨i, hw, hx⟩ | ⟨-, rfl⟩ | ⟨-, rfl⟩ := engineStep_cases s t h
    · obtain ⟨-, -, rfl⟩ | ⟨-, c, -, rfl⟩ | ⟨hi, rfl⟩ := exec_cases i s t hx
      · rfl
      · rfl
      · exact byteAt_commandWrites_outside i s a hb hw hi ha
    · rfl
    · rfl

/-- A step that is no reset leaves every byte at which it does not store. -/
theorem byteAt_step_outside (s t : State) (a : Nat) (h : step s = .next t)
    (hreset : ∀ rest, s.agenda ≠ .reset :: rest) (hst : ¬stepStoresAt a s) : byteAt t a = byteAt s a := by
  unfold stepStoresAt at hst
  match ha : s.agenda with
  | .host x :: rest =>
    obtain rfl := Host.Outcome.next.inj ((step_of_host ha).symm.trans h)
    refine byteAt_busTransaction_outside x { s with agenda := rest } a ?_
    rintro off w u rfl hc hr
    rw [ha] at hst
    exact hst ⟨⟨u, hc⟩, hr⟩
  | .engineTurn :: rest =>
    rw [ha] at hst
    exact byteAt_engineTurn_outside { s with agenda := rest } t a ((step_of_engineTurn ha).symm.trans h) hst
  | .reset :: rest => exact absurd ha (hreset rest)
  | [] =>
    rw [ha] at hst
    exact byteAt_engineTurn_outside s t a ((step_of_nil ha).symm.trans h) hst

/-! ### Two reads with nothing between them -/

/-- What a target reads as does not depend on the host's log. -/
theorem readTarget_respond (u : Target) (r : BusResponse) (s : State) :
    readTarget u (respond r s) = readTarget u s := by
  cases u with
  | reg reg => cases reg <;> rfl
  | word b k => rfl

/-- An idle block answers a read, repeated, as it answered the first. -/
theorem busTransaction_read_twice (off : Offset) (s : State) (hb : s.busy = false) :
    ∃ r, busTransaction (.read off) s = respond r s ∧
      busTransaction (.read off) (busTransaction (.read off) s) = respond r (respond r s) := by
  by_cases hacc : ∃ u, busCheck false off s = .ok u
  · obtain ⟨u, hu⟩ := hacc
    have hread := busTransaction_read_of_idle hu hb
    refine ⟨_, hread, ?_⟩
    rw [hread, busTransaction_read_of_idle (s := respond _ s) hu hb, readTarget_respond]
  · have hrefused := not_exists.mp hacc
    have hread := busTransaction_read_of_refused hrefused
    refine ⟨_, hread, ?_⟩
    rw [hread, busTransaction_read_of_refused (s := respond _ s) hrefused]

/-- Settles O50: the step's stores, event by event, and the repeated read. -/
theorem unwrittenBytesReadStable : Obligations.UnwrittenBytesReadStable :=
  ⟨byteAt_step_outside, busTransaction_read_twice⟩

end Sys2Proof.Machine
end

section
/-! SUPPORT. The proofs of the family of spec/30_encoding.md: which words are commands (R70 to R72), and the record
EMIT writes with the bounds of its fields (R74 to R76, R103, R105). -/

namespace Sys2Proof

/-! ### Legal words (R72) -/

/-- The two checks of R72 as bounds on the word's value. -/
theorem commandLegal_iff_toNat (w : Word) : commandLegal w = true ↔ 1 ≤ w.toNat ∧ w.toNat ≤ 5 := by
  simp only [commandLegal, commandReservedClear, commandOpcodeDefined, Bool.and_eq_true, decide_eq_true_eq]
  omega

/-- The two checks of R72 on the word's bit fields. -/
theorem commandLegal_iff_fields (w : Word) : commandLegal w = true ↔
    w.extractLsb' 8 24 = 0#24 ∧ 1 ≤ (w.extractLsb' 0 8).toNat ∧ (w.extractLsb' 0 8).toNat ≤ 5 := by
  have hw := w.isLt
  rw [commandLegal_iff_toNat, ← BitVec.toNat_inj, BitVec.extractLsb'_toNat, BitVec.extractLsb'_toNat,
    Nat.shiftRight_eq_div_pow, Nat.shiftRight_zero, BitVec.toNat_ofNat]
  omega

/-- The legal words, listed (R71, R72). -/
theorem commandLegal_iff_ofNat (w : Word) :
    commandLegal w = true ↔ ∃ n : Nat, 1 ≤ n ∧ n ≤ 5 ∧ w = BitVec.ofNat 32 n := by
  rw [commandLegal_iff_toNat]
  refine ⟨fun ⟨h1, h5⟩ => ⟨w.toNat, h1, h5, by simp⟩, ?_⟩
  rintro ⟨n, h1, h5, rfl⟩
  rw [BitVec.toNat_ofNat]
  omega

/-- The legal words are the commands' encodings. -/
theorem commandLegal_iff_encode (w : Word) : commandLegal w = true ↔ ∃ i : Instr, w = encode i := by
  refine ⟨fun h => ?_, fun ⟨i, hi⟩ => hi ▸ Machine.commandLegal_encode i⟩
  obtain ⟨n, h1, h5, rfl⟩ := (commandLegal_iff_ofNat w).mp h
  interval_cases n
  exacts [⟨.inject, rfl⟩, ⟨.verify, rfl⟩, ⟨.start, rfl⟩, ⟨.emit, rfl⟩, ⟨.clear, rfl⟩]

/-- Settles O1: each word decodes to the command whose encoding it is. -/
theorem commandWordsDecode : Obligations.CommandWordsDecode :=
  ⟨decode_encode .inject, rfl, decode_encode .verify, rfl, decode_encode .start, rfl, decode_encode .emit, rfl,
    decode_encode .clear, rfl⟩

/-- Settles O2: the decoder inverts the encoder, and the legal words are the encodings. -/
theorem decodeExactlyEncodedWords : Obligations.DecodeExactlyEncodedWords := fun w =>
  ⟨decode_eq_command_iff w, by simp only [decode_eq_command_iff, commandLegal_iff_encode]⟩

end Sys2Proof

namespace Sys2Proof.Machine

/-- Executing an illegal word: skipped while an error is pending, else IllegalCommand (R72, R121). -/
theorem engineStep_of_illegal (s : State) (hw : commandLegal s.pendingCmd = false) :
    engineStep s = .next (if s.err then complete s else failedWith 4#8 s.pendingCmd s) := by
  obtain ⟨t, ht⟩ := engineStep_eq_next s
  rw [ht]
  obtain ⟨i, hi, -⟩ | ⟨he, rfl⟩ | ⟨he, rfl⟩ := engineStep_cases s t ht
  · simp [hi, commandLegal_encode] at hw
  · rw [if_pos he]
  · rw [if_neg (by simp [he])]

/-- Settles O3: both readings of legality, and the engine's step of an illegal word by its ERR flag. -/
theorem illegalWordRaisesIllegalCommand : Obligations.IllegalWordRaisesIllegalCommand := by
  refine fun w => ⟨commandLegal_iff_fields w, commandLegal_iff_ofNat w, fun s hw hs => ?_⟩
  subst hs
  rw [engineStep_of_illegal s hw]
  exact ⟨fun he => by rw [if_neg (by simp [he])], fun he => by rw [if_pos he]; rfl⟩

/-! ### The next chunk (R103) -/

section Chunk

variable (s : State)

theorem chunkLen_of_boot (hr : s.region = .boot) : chunkLen s = 256 := by
  rw [chunkLen, hr]

theorem chunkLen_of_prog (hr : s.region = .prog) :
    chunkLen s = min 256 (s.progLen.toNat - s.regionPos.toNat) := by
  rw [chunkLen, hr]

theorem chunkAddr_of_boot (hr : s.region = .boot) :
    (chunkAddr s).toNat = (s.bootBase.toNat + s.regionPos.toNat) % 2 ^ 32 := by
  rw [chunkAddr, hr]
  exact BitVec.toNat_add ..

theorem chunkAddr_of_prog (hr : s.region = .prog) :
    (chunkAddr s).toNat = (s.progBase.toNat + s.regionPos.toNat) % 2 ^ 32 := by
  rw [chunkAddr, hr]
  exact BitVec.toNat_add ..

theorem chunkData_of_boot (hr : s.region = .boot) : chunkData s = bufBytes .boot 0 256 s := by
  rw [chunkData, hr, bootImage]

theorem chunkData_of_prog (hr : s.region = .prog) : chunkData s = bufBytes .data 0 (chunkLen s) s := by
  rw [chunkData, hr]

end Chunk

/-! ### EMIT (R105) -/

/-- What an EMIT that is neither skipped nor refused leaves. -/
theorem exec_emit_of_active (s : State) (he : s.err = false) (ha : s.active = true) :
    exec .emit s = .next (complete (commandWrites .emit s)) := by
  rw [exec_emit_eq, he, ha]
  rfl

theorem exec_emit_of_inactive (s : State) (he : s.err = false) (ha : s.active = false) :
    exec .emit s = .next (failedWith 5#8 4#32 s) := by
  rw [exec_emit_eq, he, ha]
  rfl

/-- OUT_BUF holds the next block's fields after the EMIT (R74, R75). -/
theorem outBufHolds_emit (s : State) :
    OutBufHolds (chunkAddr s).toNat (chunkLen s) s.blockIndex.toNat s.totalBlocks.toNat s.familyId.toNat
      (chunkData s) (complete (commandWrites .emit s)) :=
  outBufHolds_nextBlock s (complete (advance s))

/-- OUT_BUF is the next block after the EMIT, byte for byte. -/
theorem bufBytes_out_emit (s : State) : bufBytes .out 0 512 (complete (commandWrites .emit s)) = nextBlock s := by
  have h := bufBytes_storeBytes_self .out 0 (nextBlock s) (advance s)
  rwa [nextBlock_length] at h

/-- Settles O22: the refusal, and the writes of an EMIT in a pass: the next chunk by its region, the record, the
sequencer, ACTIVE and DONE on the last block, and the frame. -/
theorem emitSerializesNextBlock : Obligations.EmitSerializesNextBlock := by
  refine ⟨encode_emit, fun s he => ⟨exec_emit_of_inactive s he, fun ha => ?_⟩⟩
  refine ⟨_, _, chunkLen s, _, exec_emit_of_active s he ha, fun hr => ?_, fun hr => ?_, outBufHolds_emit s, rfl, rfl,
    rfl, rfl, fun hlast => ⟨if_pos hlast, if_pos hlast⟩, fun hlast => ⟨(if_neg hlast).trans ha, if_neg hlast⟩,
    byteAt_emit_outside s, rfl⟩
  · exact ⟨chunkAddr_of_boot s hr, chunkLen_of_boot s hr, chunkData_of_boot s hr, advance_regionPos_of_boot s hr⟩
  · refine ⟨chunkAddr_of_prog s hr, chunkLen_of_prog s hr, chunkData_of_prog s hr, ?_⟩
    rw [chunkLen_of_prog s hr]
    exact advance_regionPos_of_prog s hr

/-! ### Bounds of the record's fields (R76) -/

/-- The bootloader chunk lies below 2^32: REGION_POS is 0 and START checked the region (R104). -/
theorem ActivePass.bootChunk_le {s : State} (h : ActivePass s) (hr : s.region = .boot) :
    s.bootBase.toNat + s.regionPos.toNat + 256 ≤ 2 ^ 32 := by
  obtain ⟨-, hpos, hB⟩ := h.boot hr
  have := h.bootRange hB
  rw [hpos, BitVec.toNat_ofNat]
  omega

/-- A program chunk ends with the program at the latest, and the program lies below 2^32 (R104); an empty chunk
stands at PROG_BASE. -/
theorem ActivePass.progChunk_le {s : State} (h : ActivePass s) (hr : s.region = .prog) :
    s.progBase.toNat + s.regionPos.toNat < 2 ^ 32 ∧
      s.progBase.toNat + s.regionPos.toNat + min 256 (s.progLen.toNat - s.regionPos.toNat) ≤ 2 ^ 32 := by
  obtain ⟨-, hlt | ⟨hlen, hpos⟩⟩ := h.prog hr
  · have := h.progRange (by omega)
    omega
  · have := s.progBase.isLt
    simp only [hlen, hpos, BitVec.toNat_ofNat]
    omega

/-- The target address does not wrap in the bootloader region. -/
theorem ActivePass.chunkAddr_boot {s : State} (h : ActivePass s) (hr : s.region = .boot) :
    (chunkAddr s).toNat = s.bootBase.toNat + s.regionPos.toNat := by
  have := h.bootChunk_le hr
  rw [chunkAddr_of_boot s hr, Nat.mod_eq_of_lt (by omega)]

/-- The target address does not wrap in the program region. -/
theorem ActivePass.chunkAddr_prog {s : State} (h : ActivePass s) (hr : s.region = .prog) :
    (chunkAddr s).toNat = s.progBase.toNat + s.regionPos.toNat := by
  rw [chunkAddr_of_prog s hr, Nat.mod_eq_of_lt (h.progChunk_le hr).1]

/-- The chunk's last byte has a target address below 2^32. -/
theorem ActivePass.chunkEnd_le {s : State} (h : ActivePass s) : (chunkAddr s).toNat + chunkLen s ≤ 2 ^ 32 := by
  cases hr : s.region with
  | boot => rw [h.chunkAddr_boot hr, chunkLen_of_boot s hr]; exact h.bootChunk_le hr
  | prog => rw [h.chunkAddr_prog hr, chunkLen_of_prog s hr]; exact (h.progChunk_le hr).2

/-- Settles O23: the record's fields are the next chunk's and the sequencer's, whose bounds an active pass keeps. -/
theorem emittedFieldsWithinBounds : Obligations.EmittedFieldsWithinBounds := by
  intro s hinv he ha
  have hp := hinv.activePass ha
  have hout := outBufHolds_emit s
  refine ⟨_, exec_emit_of_active s he ha, ?_⟩
  rw [hout.targetAddress, hout.payloadLength, hout.blockIndex, hout.totalBlocks]
  refine ⟨chunkLen_le s, hp.indexLt, hp.chunkAddr_boot, hp.chunkAddr_prog, hp.chunkEnd_le, nextBlock_length s,
    bufBytes_out_emit s, hp.blockIndex_succ, ?_, ?_⟩
  · exact hp.blockIndex_succ.trans_le hp.indexLt
  · exact hp.total.trans_le (passBlocks_le s)

end Sys2Proof.Machine
end

section
/-! SUPPORT. The proofs of the family of spec/40_crc_injector.md: the CRC's values and its table form (R96, R98),
INJECT and VERIFY (R92, R93), and how long the checksum they leave stays valid (R94, R95). -/

namespace Sys2Proof.Machine

/-! ### The CRC (R96, R98) -/

theorem crc32_zeros : crc32 (zeros 252) = 0x7065399A#32 := by decide +kernel

/-- Settles O11: each input is closed, so the kernel evaluates R90's pseudocode on it. -/
theorem crcReferenceValues : Obligations.CrcReferenceValues :=
  ⟨by decide +kernel, by decide +kernel, by decide +kernel, by decide +kernel, crc32_zeros, by decide +kernel,
    by decide +kernel, by decide +kernel⟩

/-- The byte enters at the top byte of the CRC, beside the 24 bits below. -/
theorem xor_byte_eq_low_xor_top (crc : Word) (b : Byte) :
    crc ^^^ (b.setWidth 32 <<< 24) =
      (crc.setWidth 24).setWidth 32 ^^^ (((crc >>> 24).setWidth 8 ^^^ b).setWidth 32 <<< 24) := by
  apply BitVec.eq_of_getLsbD_eq
  intro i hi
  simp only [BitVec.getLsbD_xor, BitVec.getLsbD_shiftLeft, BitVec.getLsbD_setWidth, BitVec.getLsbD_ushiftRight, hi]
  rcases Nat.lt_or_ge i 24 with h | h
  · simp [h]
  · have h8 : i - 24 < 8 := by omega
    have h32 : i - 24 < 32 := by omega
    simp [Nat.not_lt.mpr h, h8, h32, Nat.add_sub_cancel' h]

/-- Shifting by a byte drops the top byte. -/
theorem low_shiftLeft (crc : Word) : (crc.setWidth 24).setWidth 32 <<< 8 = crc <<< 8 := by
  apply BitVec.eq_of_getLsbD_eq
  intro i hi
  have h24 : i - 8 < 24 := by omega
  have h32 : i - 8 < 32 := by omega
  simp [h24, h32]

/-- A byte step: on the low 24 bits the loop only shifts, on the top byte it is the table's entry, and it is
linear (R98). -/
theorem crcByte_eq_crcByteTable (crc : Word) (b : Byte) : crcByte crc b = crcByteTable crc b := by
  have hlow : ((crc.setWidth 24).setWidth 32 : Word).toNat < 2 ^ (32 - 8) := by
    simp only [BitVec.toNat_setWidth]
    omega
  rw [crcByte, xor_byte_eq_low_xor_top, crcBits_xor, crcBits_shift 8 _ (by decide) hlow, low_shiftLeft]
  rfl

/-- Settles O12: the two byte steps are one function, so the two folds are too; the entries are evaluated. -/
theorem crcTableFormEqualsBitwise : Obligations.CrcTableFormEqualsBitwise := by
  have hstep : crcByte = crcByteTable := funext₂ crcByte_eq_crcByteTable
  refine ⟨crcByte_eq_crcByteTable, fun bs => ?_, by decide, by decide, by decide, by decide, by decide⟩
  rw [crc32, crc32Table, hstep]

/-! ### The boot image's bytes -/

/-- Two ranges with the same bytes have the same sub-ranges. -/
theorem bufBytes_sub_of_eq {b c : Buffer} {off off' n : Nat} {s t : State}
    (h : bufBytes b off n s = bufBytes c off' n t) (i m : Nat) (hn : i + m ≤ n) :
    bufBytes b (off + i) m s = bufBytes c (off' + i) m t := by
  rw [← bufBytes_drop_take b off n i m s hn, h, bufBytes_drop_take c off' n i m t hn]

theorem bufBytes_append (b : Buffer) (off m n : Nat) (s : State) :
    bufBytes b off (m + n) s = bufBytes b off m s ++ bufBytes b (off + m) n s := by
  simp only [bufBytes, List.range_add, List.map_append, List.map_map, Function.comp_def, Nat.add_assoc]

theorem crc32_of_zero_body (s : State) (h : ∀ k, k < 252 → byteAt s (0x100 + k) = 0#8) :
    crc32 (bufBytes .boot 0 252 s) = 0x7065399A#32 := by
  have hzero : bufBytes .boot 0 252 s = zeros 252 :=
    List.eq_replicate_iff.mpr ⟨bufBytes_length .boot 0 252 s, fun b hb => by
      obtain ⟨k, hk, rfl⟩ := List.mem_map.mp hb
      exact h k (List.mem_range.mp hk)⟩
  rw [hzero, crc32_zeros]

/-! ### INJECT (R92) -/

/-- A command that nothing skips or refuses makes its own writes. -/
theorem exec_of_accepted (i : Instr) (s : State) (h : commandAccepted i s) :
    exec i s = .next (complete (commandWrites i s)) := by
  cases i with
  | inject =>
    obtain ⟨he, ha, hl⟩ := h
    rw [exec_inject_eq, he, ha, if_pos hl]
    rfl
  | verify =>
    obtain ⟨he, hl⟩ := h
    rw [exec_verify_eq, he, if_pos hl]
    rfl
  | start =>
    obtain ⟨he, ha, hs⟩ := h
    exact exec_start_begin s he ha hs
  | emit => exact exec_emit_of_active s h.1 h.2
  | clear => rfl

/-- INJECT's writes but for the checksum field, CRC_RESULT, BOOT_OK and BUSY. -/
theorem inject_frame (s : State) : { complete (commandWrites .inject s) with
    crcResult := s.crcResult, bootOk := s.bootOk, busy := s.busy, mem := s.mem } = s := rfl

/-- Settles O13: the two refusals, and the writes of an accepted INJECT with their frame. -/
theorem injectWritesChecksum : Obligations.InjectWritesChecksum := by
  refine ⟨encode_inject, fun s he => ⟨fun ha => ?_, fun ha hl => ?_, fun ha hl => ?_⟩⟩
  · rw [exec_inject_eq, he, ha]
    rfl
  · rw [exec_inject_eq, he, ha, if_neg hl]
    rfl
  · have hfield := bufBytes_injectChecksum_field s
    refine ⟨_, exec_of_accepted .inject s ⟨he, ha, hl⟩, rfl, ?_, rfl, rfl, byteAt_injectChecksum_outside s,
      inject_frame s, fun hzero => ?_⟩
    · exact (congrArg leValue hfield).trans (leValue_le32 _)
    · have hcrc : crc32 (bootBody s) = 0x7065399A#32 := crc32_of_zero_body s hzero
      refine ⟨hcrc, hfield.trans ?_⟩
      rw [hcrc]
      decide

/-! ### VERIFY (R93) -/

/-- What an accepted VERIFY leaves, with the CRC's bytes and the stored field written out. -/
theorem verify_eq (s : State) : complete (commandWrites .verify s) = { s with
    crcResult := crc32 (bufBytes .boot 0 252 s)
    bootOk := decide (leValue (bufBytes .boot 252 4 s) = (crc32 (bufBytes .boot 0 252 s)).toNat)
    busy := false } := by
  rw [commandWrites, complete, checkChecksum, storedChecksum, memRead, bootBody]

/-- Settles O14: the refusal, the check's writes, and the two fields compared with the CRC of the zero body. -/
theorem verifyComparesChecksum : Obligations.VerifyComparesChecksum := by
  refine ⟨encode_verify, fun s he => ?_⟩
  have hverify := fun hl => exec_of_accepted .verify s ⟨he, hl⟩
  simp only [verify_eq] at hverify
  refine ⟨fun hl => ?_, hverify, fun hl hzero => ?_⟩
  · rw [exec_verify_eq, he, if_neg hl]
    rfl
  · simp only [crc32_of_zero_body s hzero] at hverify
    refine ⟨_, hverify hl, rfl, fun hfield => ?_, fun hfield => ?_⟩ <;> rw [hfield] <;> rfl

/-! ### The checksum INJECT leaves (R94, R95) -/

/-- An INJECT with BOOT_LEN = 256 leaves a checked boot image (R92). -/
theorem bootChecked_inject (s : State) (hl : s.bootLen = 256#32) :
    BootChecked (complete (commandWrites .inject s)) where
  length := hl
  checksum := by
    rw [checksumValid, bufBytes_complete, bufBytes_complete, commandWrites, bufBytes_injectChecksum_field,
      bufBytes_injectChecksum_body, leValue_le32]
    rfl
  result := by
    rw [bufBytes_complete, commandWrites, bufBytes_injectChecksum_body]
    rfl

/-- VERIFY of a checked boot image sets BOOT_OK and leaves CRC_RESULT (R93). -/
theorem BootChecked.verify {s : State} (h : BootChecked s) :
    commandWrites .verify s = { s with bootOk := true } := by
  have hok : decide (storedChecksum s = (crc32 (bootBody s)).toNat) = true := decide_eq_true h.checksum
  rw [commandWrites, checkChecksum, hok, show crc32 (bootBody s) = s.crcResult from h.result.symm]

/-- Settles O15: INJECT leaves a checked boot image, which VERIFY finds so. -/
theorem verifyAfterInjectPasses : Obligations.VerifyAfterInjectPasses := by
  intro s he ha hl
  have hverify := exec_of_accepted .verify (complete (commandWrites .inject s)) ⟨he, hl⟩
  rw [(bootChecked_inject s hl).verify] at hverify
  exact ⟨_, _, exec_of_accepted .inject s ⟨he, ha, hl⟩, hverify, rfl, rfl, he⟩

/-- The boot image after INJECT is a function of the bytes the checksum covers. -/
theorem bootImage_inject (s : State) : bufBytes .boot 0 256 (complete (commandWrites .inject s)) =
    bootBody s ++ le32 (crc32 (bootBody s)) := by
  rw [bufBytes_complete, commandWrites, bufBytes_append .boot 0 252 4, bufBytes_injectChecksum_body,
    bufBytes_injectChecksum_field, bootBody]

/-- INJECT leaves the bytes its checksum covers. -/
theorem bootBody_inject (s : State) : bootBody (complete (commandWrites .inject s)) = bootBody s :=
  bufBytes_injectChecksum_body s

/-- A second INJECT stores the same field over itself, so the whole state stays (R95). -/
theorem inject_inject (s : State) : complete (commandWrites .inject (complete (commandWrites .inject s))) =
    complete (commandWrites .inject s) := by
  have hbody := bootBody_inject s
  simp only [commandWrites, injectChecksum, memWrite, storeBytes, complete] at hbody ⊢
  rw [hbody, writeBytes_writeBytes _ _ _ _ rfl]

/-- Settles O16: right after the first INJECT nothing changes, and later the image, CRC_RESULT and BOOT_OK are
those of the same covered bytes. -/
theorem injectIsIdempotent : Obligations.InjectIsIdempotent := by
  intro s he ha hl
  have hagain := exec_of_accepted .inject (complete (commandWrites .inject s)) ⟨he, ha, hl⟩
  rw [inject_inject] at hagain
  refine ⟨_, exec_of_accepted .inject s ⟨he, ha, hl⟩, ⟨_, hagain, fun _ => rfl, rfl⟩, fun u hue hua hul hbytes => ?_⟩
  have hcovered := bufBytes_sub_of_eq hbytes 0 252 (by decide)
  have hbody : bootBody u = bootBody s := hcovered.trans (bootBody_inject s)
  refine ⟨_, exec_of_accepted .inject u ⟨hue, hua, hul⟩, ?_, ?_, ?_⟩
  · rw [bootImage_inject, bootImage_inject, hbody]
  · exact congrArg crc32 hbody
  · simp only [commandWrites, complete_bootOk, injectChecksum_bootOk]

/-- The stored field and CRC_RESULT are the CRC of the bytes it covers (R94). -/
def ChecksumStands (s : State) : Prop := checksumValid s ∧ s.crcResult = crc32 (bufBytes .boot 0 252 s)

/-- It stands while CRC_RESULT and the bytes of BOOT_BUF stay: `BootChecked.of_bytes` at BOOT_LEN = 256, of which
neither part speaks. -/
theorem ChecksumStands.of_bytes {s t : State} (h : ChecksumStands s) (hcrc : t.crcResult = s.crcResult)
    (hbytes : ∀ a, 0x100 ≤ a → a < 0x200 → byteAt t a = byteAt s a) : ChecksumStands t := by
  have hs : BootChecked { s with bootLen := 256#32 } := ⟨rfl, h.1, h.2⟩
  have ht : BootChecked { t with bootLen := 256#32 } := hs.of_bytes rfl hcrc hbytes
  exact ⟨ht.checksum, ht.result⟩

theorem BootChecked.checksumStands {s : State} (h : BootChecked s) : ChecksumStands s := ⟨h.checksum, h.result⟩

/-- INJECT and VERIFY set CRC_RESULT to the CRC, and no other command writes it or BOOT_BUF. -/
theorem ChecksumStands.commandWrites {s : State} (h : ChecksumStands s) {i : Instr} (hi : commandAccepted i s) :
    ChecksumStands (complete (commandWrites i s)) := by
  cases i with
  | inject => exact (bootChecked_inject s hi.2.2).checksumStands
  | verify =>
    rw [verify_eq]
    exact ⟨h.1, rfl⟩
  | emit => exact h.of_bytes rfl fun a _ ha => byteAt_emit_outside s a (by omega)
  | start | clear => exact h

theorem ChecksumStands.engineStep {s t : State} (h : ChecksumStands s) (hx : engineStep s = .next t) :
    ChecksumStands t := by
  obtain ⟨i, -, hx⟩ | ⟨-, rfl⟩ | ⟨-, rfl⟩ := engineStep_cases s t hx
  · obtain ⟨-, -, rfl⟩ | ⟨-, c, -, rfl⟩ | ⟨hi, rfl⟩ := exec_cases i s t hx
    · exact h
    · exact h
    · exact h.commandWrites hi
  · exact h
  · exact h

/-- The host cannot write CRC_RESULT (R36). -/
theorem busTransaction_crcResult (x : BusTxn) (s : State) : (busTransaction x s).crcResult = s.crcResult := by
  obtain hx | ⟨_, u, -, -, hx⟩ | ⟨_, w, u, -, -, hx⟩ := busTransaction_cases x s <;> rw [hx]
  · rfl
  · obtain ⟨-, -, hr⟩ | ⟨-, hr⟩ := acceptRead_cases u s <;> rw [hr] <;> rfl
  · cases u with
    | reg r => cases r <;> rfl
    | word b k => cases b <;> rfl

/-- A transaction that is no accepted write of BOOT_BUF or BOOT_LEN leaves the bytes of BOOT_BUF. -/
theorem byteAt_busTransaction_boot (x : BusTxn) (s : State) (hx : ¬acceptedBootWrite x s) (a : Nat)
    (h1 : 0x100 ≤ a) (h2 : a < 0x200) : byteAt (busTransaction x s) a = byteAt s a := by
  apply byteAt_busTransaction_outside
  rintro off w u rfl hc hr
  obtain ⟨h4, hu, -⟩ := (busCheck_write_ok off s u).mp hc
  have hk := busTarget_of_boot_offset off (by omega)
  rw [Option.some.inj (hu.symm.trans hk)] at hc
  exact hx (.inr ⟨_, hc⟩)

/-- Settles O17: INJECT leaves a checked image; a host transaction leaves BOOT_BUF and CRC_RESULT, and the engine's
step keeps the claim command by command. -/
theorem checksumKeptUntilBootWrite : Obligations.ChecksumKeptUntilBootWrite := by
  refine ⟨fun s he ha hl => ?_, fun s t hx hboot hreset hvalid hcrc => ?_⟩
  · exact ⟨_, exec_of_accepted .inject s ⟨he, ha, hl⟩, (bootChecked_inject s hl).checksumStands⟩
  · obtain ⟨rest, hcases⟩ := step_cases s t hx
    have hs : ChecksumStands { s with agenda := rest } := ⟨hvalid, hcrc⟩
    obtain ⟨x, hagenda, rfl⟩ | ⟨hagenda, -⟩ | ⟨-, rfl⟩ | ⟨-, hx⟩ := hcases
    · exact hs.of_bytes (busTransaction_crcResult x _) (byteAt_busTransaction_boot x _ (hboot x rest hagenda))
    · exact absurd hagenda (hreset rest)
    · exact hs
    · exact hs.engineStep hx

/-! ### The bootloader block (R94, R104) -/

/-- Settles O24: the pass's boot image is checked, and the record's data region is that image. -/
theorem bootBlockCarriesValidChecksum : Obligations.BootBlockCarriesValidChecksum := by
  intro s hinv he ha hr
  have hp := hinv.activePass ha
  obtain ⟨-, -, hB⟩ := hp.boot hr
  have hchecked := hinv.bootChecked (hp.bootOk hB)
  have hout := outBufHolds_emit s
  rw [chunkLen_of_boot s hr, chunkData_of_boot s hr] at hout
  refine ⟨_, exec_of_accepted .emit s ⟨he, ha⟩, ?_, hout.payloadLength⟩
  rw [memRead, bufBytes_sub_of_eq hout.chunk 252 4 (by decide), bufBytes_sub_of_eq hout.chunk 0 252 (by decide)]
  exact hchecked.checksum

end Sys2Proof.Machine
end

section
/-! SUPPORT. The proofs of the family of spec/41_uf2_encoder.md on START and on one EMIT: the checks in their order
(R104, R142), the address overflow (R110), the block count's bounds (R109), the boundary cases (R108) and the bytes
of DATA_BUF that no record carries (R103, R166). -/

namespace Sys2Proof.Machine

/-! ### START's checks (R104, R142) -/

/-- A START that no pending error skips: the five refusals in order, or the pass begins. PayloadTooLarge is out of
reach (R109). -/
theorem exec_start_eq (s : State) (he : s.err = false) : exec .start s = .next (
    if s.active = true then failedWith 5#8 3#32 s
    else if s.bootEn = true ∧ s.bootLen ≠ 256#32 then failedWith 1#8 3#32 s
    else if s.bootEn = true ∧ s.bootOk = false then failedWith 5#8 3#32 s
    else if s.bootEn = true ∧ s.bootBase.toNat + 255 > 0xFFFFFFFF then failedWith 6#8 3#32 s
    else if s.progLen.toNat > 0 ∧ s.progBase.toNat + s.progLen.toNat - 1 > 0xFFFFFFFF then failedWith 6#8 3#32 s
    else complete (beginPass s)) := by
  have htotal : ¬passBlocks s > 0xFFFFFFFF := by
    have := passBlocks_le s
    omega
  simp only [exec, execStart, runCommand_of_ok _ s he, start, if_neg htotal, bootRegionOverflows, progRegionOverflows,
    bootRegionBlocks_eq_one, Bool.and_eq_true, Bool.not_eq_true', bootLenOk_false_iff, decide_eq_true_eq,
    apply_ite complete, complete_raise, CommandError.code, encode_start]

/-- Settles O19: each clause picks its branch of `exec_start_eq`. -/
theorem startErrorsInOrder : Obligations.StartErrorsInOrder := by
  intro s he
  rw [exec_start_eq s he]
  refine ⟨fun ha => ?_, fun ha hB hl => ?_, fun ha hB hl hok => ?_, fun ha hB hl hok hbase => ?_,
    fun ha hboot hlen hprog => ?_⟩
  · rw [if_pos ha]
  · simp [ha, hB, hl]
  · simp [ha, hB, hl, hok]
  · simp [ha, hB, hl, hok, hbase]
  · have hl : ¬(s.bootEn = true ∧ s.bootLen ≠ 256#32) := fun h => h.2 (hboot h.1).1
    have hok : ¬(s.bootEn = true ∧ s.bootOk = false) := fun h => by simp [(hboot h.1).2.1] at h
    have hbase : ¬(s.bootEn = true ∧ s.bootBase.toNat + 255 > 0xFFFFFFFF) := fun h =>
      Nat.not_lt.mpr (hboot h.1).2.2 h.2
    rw [if_neg (by simp [ha]), if_neg hl, if_neg hok, if_neg hbase, if_pos ⟨hlen, hprog⟩]

/-- Settles O20: past the earlier checks either region's overflow raises (R142's last two refusals), and without one
the pass begins. -/
theorem startAddressOverflowIff : Obligations.StartAddressOverflowIff := by
  intro s he ha hboot
  obtain ⟨-, -, -, hbootOverflow, hprogOverflow⟩ := startErrorsInOrder s he
  refine ⟨⟨fun h => ?_, fun h => ?_⟩, fun hB hlen => ?_⟩
  · by_contra hnone
    obtain ⟨hbase, hprog⟩ := not_or.mp hnone
    have hacc : startAccepted s :=
      ⟨fun hB => ⟨(hboot hB).1, (hboot hB).2, by have := not_and.mp hbase hB; omega⟩, fun hlen => by omega⟩
    rw [exec_start_begin s he ha hacc] at h
    have herr : s.err = true := congrArg State.err (Host.Outcome.next.inj h)
    simp [he] at herr
  · by_cases hbase : s.bootEn = true ∧ s.bootBase.toNat > 0xFFFFFF00
    · obtain ⟨hB, hbase⟩ := hbase
      exact hbootOverflow ha hB (hboot hB).1 (hboot hB).2 (by omega)
    · obtain ⟨hlen, hprog⟩ := h.resolve_left hbase
      have hin : s.bootEn = true → s.bootBase.toNat + 255 ≤ 0xFFFFFFFF := fun hB => by
        have := not_and.mp hbase hB
        omega
      exact hprogOverflow ha (fun hB => ⟨(hboot hB).1, (hboot hB).2, hin hB⟩) hlen hprog
  · exact ⟨_, exec_start_begin s he ha ⟨fun h => by simp [hB] at h, fun h => by simp [hlen] at h⟩, he⟩

/-- Settles O18: the block count of R100 is `progRegionBlocks`. -/
theorem startBeginsPass : Obligations.StartBeginsPass := by
  intro s he ha hboot hprog
  have hcount : bootRegionBlocks s + progRegionBlocks s = s.bootEn.toNat + progRegionBlocks s := by
    rw [bootRegionBlocks_eq]
  refine ⟨progRegionBlocks s, progRegionBlocks_zero s, fun hlen => ?_, ?_, hcount.symm.trans_le (passBlocks_le s)⟩
  · rw [progRegionBlocks_pos s hlen]
    omega
  · rw [exec_start_begin s he ha ⟨hboot, hprog⟩, complete, beginPass, passBlocks, hcount]
    simp only [bootRegionBlocks_eq_one]

/-- Settles O21: the bounds of R109, and no outcome of START records code 2. -/
theorem payloadTooLargeUnreachable : Obligations.PayloadTooLargeUnreachable := by
  refine fun s => ⟨progRegionBlocks_le s, passBlocks_le s, fun t hx hcode => ?_⟩
  obtain ⟨-, -, rfl⟩ | ⟨-, c, hc, rfl⟩ | ⟨-, rfl⟩ := exec_cases .start s t hx
  · exact hcode
  · obtain rfl : c = 2#8 := hcode
    exact absurd hc (by decide)
  · exact hcode

/-! ### The boundary cases (R108) -/

/-- Settles O26: BLOCK_INDEX counts the chunks below REGION_POS, so the last chunk of 256·m bytes is a full one, and a
single byte is its pass's last chunk. -/
theorem blockBoundaryCases : Obligations.BlockBoundaryCases := by
  refine ⟨fun s m hm hlen => ⟨?_, fun hinv he ha hr hlast => ?_⟩, fun s hlen => ⟨?_, fun hinv he ha hr => ?_⟩⟩
  · rw [progRegionBlocks_pos s (by omega)]
    omega
  · have hp := hinv.activePass ha
    have hfull : chunkLen s = 256 := by
      obtain ⟨hmod, hpos⟩ := hp.prog hr
      have hend := (hp.lastBlock_iff hr).mp hlast
      have hlt : s.regionPos.toNat < s.progLen.toNat := hpos.resolve_right fun h => by simp [h.1] at hlen; omega
      rw [chunkLen_of_prog s hr]
      omega
    exact ⟨_, exec_emit_of_active s he ha, (outBufHolds_emit s).payloadLength.trans hfull, if_pos hlast⟩
  · rw [progRegionBlocks_pos s (by omega), hlen]
  · have hp := hinv.activePass ha
    have hpos : s.regionPos.toNat < s.progLen.toNat := (hp.prog hr).2.resolve_right fun h => by simp [h.1] at hlen
    have hone : chunkLen s = 1 := by
      rw [chunkLen_of_prog s hr]
      omega
    have hout := outBufHolds_emit s
    rw [hone] at hout
    exact ⟨_, exec_emit_of_active s he ha, hout.payloadLength, if_pos ((hp.lastBlock_iff hr).mpr (by omega)),
      fun k h33 h507 => hout.padding k (by omega) (by omega)⟩

/-! ### Stale bytes of DATA_BUF (R103, R166) -/

/-- In the program region the record reads no byte but the chunk's. -/
theorem nextBlock_of_chunk_eq (s : State) (m : Memory) (d : Nat) (hr : s.region = .prog)
    (h : ∀ k, k < chunkLen s → byteAt { s with mem := m, resetDraw := d } (0x200 + k) = byteAt s (0x200 + k)) :
    nextBlock { s with mem := m, resetDraw := d } = nextBlock s := by
  have hdata : chunkData { s with mem := m, resetDraw := d } = chunkData s := by
    rw [chunkData_of_prog s hr]
    exact (chunkData_of_prog { s with mem := m, resetDraw := d } hr).trans (bufBytes_congr .data 0 _ s _ h)
  rw [nextBlock, hdata]
  rfl

/-- Settles O25: the two states differ in memory and draws alone, and agree on the chunk's bytes. -/
theorem staleDataBytesNeverEmitted : Obligations.StaleDataBytesNeverEmitted := by
  intro s u he ha hr hsame hbytes
  obtain ⟨m, d, rfl⟩ : ∃ m d, u = { s with mem := m, resetDraw := d } :=
    ⟨u.mem, u.resetDraw, by rw [← hsame]⟩
  rw [← chunkLen_of_prog s hr] at hbytes
  refine ⟨_, _, exec_emit_of_active s he ha, exec_emit_of_active _ he ha, ?_⟩
  rw [bufBytes_out_emit, bufBytes_out_emit, nextBlock_of_chunk_eq s m d hr hbytes]

end Sys2Proof.Machine
end

section
/-! SUPPORT. The proofs of the family of spec/41_uf2_encoder.md on a whole pass (R106, R107, R111). In a pass the
sequencer is a function of BLOCK_INDEX, so record `k` is a function of the configuration, the boot image and the
program data; one induction over the rounds gives the records, and the three statements are read off them. -/

namespace Sys2Proof.Machine

/-! ### The records of a pass -/

/-- Bytes `[256·q, 256·q + 256)` of the program data, as far as they reach (R102). -/
def programChunk (p : List Byte) (q : Nat) : List Byte := (p.drop (256 * q)).take 256

/-- The payload of a pass's record `k`: the boot image first if BOOT_EN = 1, then the program's chunks (R103). -/
def passPayload (p : List Byte) (s : State) (k : Nat) : List Byte :=
  if k < bootRegionBlocks s then bootImage s else programChunk p (k - bootRegionBlocks s)

/-- The target address of a pass's record `k` (R103). -/
def passAddr (s : State) (k : Nat) : Word :=
  if k < bootRegionBlocks s then s.bootBase
  else s.progBase + BitVec.ofNat 32 (256 * (k - bootRegionBlocks s))

/-- A pass's record `k`. -/
def passRecord (p : List Byte) (s : State) (k : Nat) : List Byte :=
  serialize (passAddr s k) (passPayload p s k).length (BitVec.ofNat 32 k) s.totalBlocks s.familyId (passPayload p s k)

theorem passPayload_length_le (p : List Byte) (s : State) (k : Nat) : (passPayload p s k).length ≤ 476 := by
  unfold passPayload
  split
  · rw [bootImage, bufBytes_length]
    decide
  · simp only [programChunk, List.length_take]
    omega

theorem recordField_index_passRecord (p : List Byte) (s : State) (k : Nat) (hk : k < 2 ^ 32) :
    recordField 20 (passRecord p s k) = k := by
  rw [passRecord, serialize_blockIndex, BitVec.toNat_ofNat, Nat.mod_eq_of_lt hk]

theorem recordField_total_passRecord (p : List Byte) (s : State) (k : Nat) :
    recordField 24 (passRecord p s k) = s.totalBlocks.toNat :=
  serialize_totalBlocks ..

theorem recordPayload_comp_passRecord (p : List Byte) (s : State) :
    recordPayload ∘ passRecord p s = passPayload p s := by
  funext k
  rw [Function.comp_apply, recordPayload, passRecord, serialize_payloadLength _ _ _ _ _ _ (passPayload_length_le p s k),
    serialize_chunk _ _ _ _ _ _ rfl]

/-- What a pass's records depend on beside the program data is the same in both states. -/
structure SamePassInputs (s t : State) : Prop where
  bootEn : t.bootEn = s.bootEn
  totalBlocks : t.totalBlocks = s.totalBlocks
  bootBase : t.bootBase = s.bootBase
  progBase : t.progBase = s.progBase
  familyId : t.familyId = s.familyId
  bootImage : bootImage t = bootImage s

theorem SamePassInputs.passRecord_eq {s t : State} (h : SamePassInputs s t) (p : List Byte) :
    passRecord p t = passRecord p s := by
  have hnb : bootRegionBlocks t = bootRegionBlocks s := by rw [bootRegionBlocks_eq, bootRegionBlocks_eq, h.bootEn]
  funext k
  simp only [passRecord, passPayload, passAddr, hnb, h.totalBlocks, h.bootBase, h.progBase,
    h.familyId, h.bootImage]

/-! ### The chunk of a round -/

theorem stageChunk_of_boot (p : List Byte) (s : State) (hr : s.region = .boot) : stageChunk p s = s := by
  rw [stageChunk, hr]

theorem stageChunk_of_prog (p : List Byte) (s : State) (hr : s.region = .prog) :
    stageChunk p s = storeBytes .data 0 ((p.drop s.regionPos.toNat).take (chunkLen s)) s := by
  rw [stageChunk, hr]

/-- Staging is a store into memory. -/
theorem stageChunk_eq (p : List Byte) (s : State) : ∃ m, stageChunk p s = { s with mem := m } := by
  unfold stageChunk
  split
  · exact ⟨s.mem, rfl⟩
  · exact ⟨_, rfl⟩

/-- In the program region REGION_POS is a function of BLOCK_INDEX. -/
theorem ActivePass.regionPos_eq {s : State} (h : ActivePass s) (hr : s.region = .prog) :
    bootRegionBlocks s ≤ s.blockIndex.toNat ∧
      s.regionPos.toNat = 256 * (s.blockIndex.toNat - bootRegionBlocks s) := by
  have hi := h.progIndex hr
  obtain ⟨hmod, -⟩ := h.prog hr
  omega

/-- The bootloader region is the pass's block 0. -/
theorem ActivePass.blockIndex_lt_of_boot {s : State} (h : ActivePass s) (hr : s.region = .boot) :
    s.blockIndex.toNat < bootRegionBlocks s := by
  obtain ⟨hi, -, hB⟩ := h.boot hr
  rw [hi, (bootRegionBlocks_eq_one s).mpr hB]
  decide

theorem ActivePass.chunkAddr_eq {s : State} (h : ActivePass s) : chunkAddr s = passAddr s s.blockIndex.toNat := by
  cases hr : s.region with
  | boot =>
    obtain ⟨-, hpos, -⟩ := h.boot hr
    rw [chunkAddr, hr, hpos, passAddr, if_pos (h.blockIndex_lt_of_boot hr)]
    exact BitVec.add_zero _
  | prog =>
    obtain ⟨hle, hpos⟩ := h.regionPos_eq hr
    rw [chunkAddr, hr, passAddr, if_neg (Nat.not_lt.mpr hle), ← hpos, BitVec.ofNat_toNat, BitVec.setWidth_eq]

/-- The next EMIT's chunk, staged, is the payload of the record at BLOCK_INDEX. -/
theorem ActivePass.chunkData_stageChunk {p : List Byte} {s : State} (h : ActivePass s)
    (hd : p.length = s.progLen.toNat) : chunkData (stageChunk p s) = passPayload p s s.blockIndex.toNat := by
  cases hr : s.region with
  | boot => rw [stageChunk_of_boot p s hr, chunkData, hr, passPayload, if_pos (h.blockIndex_lt_of_boot hr)]
  | prog =>
    obtain ⟨hle, hpos⟩ := h.regionPos_eq hr
    have hchunk : (p.drop s.regionPos.toNat).take (chunkLen s) =
        programChunk p (s.blockIndex.toNat - bootRegionBlocks s) := by
      rw [programChunk, ← hpos, chunkLen_of_prog s hr, ← hd, ← List.length_drop, ← List.take_eq_take_min]
    have hlen : ((p.drop s.regionPos.toNat).take (chunkLen s)).length = chunkLen s := by
      rw [List.length_take, List.length_drop, hd, chunkLen_of_prog s hr]
      omega
    have hread := bufBytes_storeBytes_self .data 0 ((p.drop s.regionPos.toNat).take (chunkLen s)) s
    rw [hlen, hchunk] at hread
    rw [stageChunk_of_prog p s hr, passPayload, if_neg (Nat.not_lt.mpr hle), ← hread, ← hchunk]
    exact chunkData_of_prog _ hr

/-- The record of a round of staging and EMIT is the pass's record at BLOCK_INDEX. -/
theorem ActivePass.nextBlock_stageChunk {p : List Byte} {s : State} (h : ActivePass s)
    (hd : p.length = s.progLen.toNat) : nextBlock (stageChunk p s) = passRecord p s s.blockIndex.toNat := by
  have hdata := h.chunkData_stageChunk hd
  rw [nextBlock, ← chunkData_length, hdata, passRecord, ← h.chunkAddr_eq, BitVec.ofNat_toNat, BitVec.setWidth_eq]
  obtain ⟨m, hm⟩ := stageChunk_eq p s
  rw [hm]
  rfl

/-! ### The rounds -/

/-- What a round of staging and EMIT leaves in an active pass. -/
def passRound (p : List Byte) (s : State) : State := complete (commandWrites .emit (stageChunk p s))

/-- A round moves the sequencer as EMIT does, and stores into memory. -/
theorem passRound_eq (p : List Byte) (s : State) :
    ∃ m, passRound p s = { advance s with mem := m, busy := false } := by
  obtain ⟨m, hm⟩ := stageChunk_eq p s
  rw [passRound, hm]
  exact ⟨_, rfl⟩

/-- A round stores outside BOOT_BUF. -/
theorem bootImage_passRound (p : List Byte) (s : State) : bootImage (passRound p s) = bootImage s := by
  apply bufBytes_congr
  intro k hk
  simp only [base_boot, Config.bootImageSize] at *
  rw [passRound, byteAt_complete, byteAt_emit_outside _ _ (by omega)]
  cases hr : s.region with
  | boot => rw [stageChunk_of_boot p s hr]
  | prog =>
    rw [stageChunk_of_prog p s hr, byteAt_storeBytes_outside]
    rw [base_data]
    omega

theorem samePassInputs_passRound (p : List Byte) (s : State) : SamePassInputs s (passRound p s) := by
  have himage := bootImage_passRound p s
  obtain ⟨m, hm⟩ := passRound_eq p s
  rw [hm] at himage ⊢
  exact ⟨rfl, rfl, rfl, rfl, rfl, himage⟩

/-- A pass over the program data `p` under way or at its end: ACTIVE while BLOCK_INDEX is below the total, DONE
then. -/
structure PassProgress (p : List Byte) (s : State) : Prop where
  err : s.err = false
  data : p.length = s.progLen.toNat
  pass : s.active = true → ActivePass s
  active : s.active = decide (s.blockIndex.toNat < s.totalBlocks.toNat)
  done : s.done = !s.active

/-- A round in an active pass goes one block further, or to the end. -/
theorem PassProgress.round {p : List Byte} {s : State} (h : PassProgress p s) (ha : s.active = true) :
    PassProgress p (passRound p s) ∧ (passRound p s).blockIndex.toNat = s.blockIndex.toNat + 1 := by
  have hp := h.pass ha
  have hlt := hp.indexLt
  obtain ⟨m, hm⟩ := passRound_eq p s
  rw [hm]
  refine ⟨⟨h.err, h.data, fun ha' => ?_, ?_, ?_⟩, hp.blockIndex_succ⟩
  · have hn : s.blockIndex.toNat + 1 ≠ s.totalBlocks.toNat := by
      rintro hlast
      simp [hlast] at ha'
    exact { hp.advance hn with }
  · simp only [advance_active, advance_blockIndex, advance_totalBlocks, hp.blockIndex_succ, ha]
    split_ifs with hlast
    · simp [hlast]
    · exact (decide_eq_true (by omega)).symm
  · simp only [advance_active, advance_done, ha, hp.notDone]
    split_ifs <;> rfl

/-- One round of `emitBlocks` in an active pass. -/
theorem PassProgress.emitBlocks_succ {p : List Byte} {s : State} (h : PassProgress p s) (ha : s.active = true)
    (n : Nat) : emitBlocks p (n + 1) s = (emitBlocks p n (passRound p s)).map
      (fun r => (passRecord p s s.blockIndex.toNat :: r.1, r.2)) := by
  have hexec : exec .emit (stageChunk p s) = .next (passRound p s) := by
    obtain ⟨m, hm⟩ := stageChunk_eq p s
    rw [passRound, hm]
    exact exec_emit_of_active _ h.err ha
  have hout : bufBytes .out 0 512 (passRound p s) = passRecord p s s.blockIndex.toNat :=
    (bufBytes_out_emit _).trans ((h.pass ha).nextBlock_stageChunk h.data)
  simp only [emitBlocks, hexec, hout]

/-- `n` rounds, no more than there are blocks left, give the pass's next `n` records. -/
theorem PassProgress.emitBlocks_eq {p : List Byte} (n : Nat) {s : State} (h : PassProgress p s)
    (hn : s.blockIndex.toNat + n ≤ s.totalBlocks.toNat) :
    ∃ u, emitBlocks p n s = some ((List.range' s.blockIndex.toNat n).map (passRecord p s), u) ∧
      PassProgress p u ∧ u.blockIndex.toNat = s.blockIndex.toNat + n ∧ u.totalBlocks = s.totalBlocks := by
  induction n generalizing s with
  | zero => exact ⟨s, rfl, h, rfl, rfl⟩
  | succ n ih =>
    have ha : s.active = true := h.active.trans (decide_eq_true (by omega))
    have hsame := samePassInputs_passRound p s
    obtain ⟨hround, hindex⟩ := h.round ha
    obtain ⟨u, hemit, hu, hui, hut⟩ := ih hround (by rw [hindex, hsame.totalBlocks]; omega)
    rw [hsame.passRecord_eq p, hindex] at hemit
    refine ⟨u, ?_, hu, by omega, hut.trans hsame.totalBlocks⟩
    rw [h.emitBlocks_succ ha, hemit, List.range'_succ]
    rfl

/-! ### From START to DONE -/

theorem totalBlocks_beginPass (s : State) : (beginPass s).totalBlocks.toNat = passBlocks s := by
  have := passBlocks_le s
  rw [beginPass_totalBlocks, BitVec.toNat_ofNat]
  omega

/-- START that is accepted begins an active pass, if there is a block (R104). -/
theorem startAccepted.activePass {s : State} (h : startAccepted s) (hn : passBlocks s ≠ 0) :
    ActivePass (beginPass s) where
  notDone := by simpa using hn
  indexLt := (Nat.pos_of_ne_zero hn).trans_eq (totalBlocks_beginPass s).symm
  boot hr := ⟨rfl, rfl, by simpa [bootRegionBlocks_eq_one] using hr⟩
  prog _ := ⟨rfl, (progLen_pos_or_eq_zero s).imp_right fun hz => ⟨hz, rfl⟩⟩
  total := totalBlocks_beginPass s
  progIndex hr := by
    have hB : s.bootEn = false := by simpa [bootRegionBlocks_eq_one] using hr
    simp [bootRegionBlocks, hB]
  bootRange hB := (h.1 hB).2.2
  progRange := h.2
  bootOk hB := (h.1 hB).2.1

theorem startAccepted.passProgress {p : List Byte} {s : State} (h : startAccepted s) (he : s.err = false)
    (hd : p.length = s.progLen.toNat) : PassProgress p (complete (beginPass s)) where
  err := he
  data := hd
  pass ha := { h.activePass (by simpa using ha) with }
  active := by
    simp only [complete_active, complete_totalBlocks, totalBlocks_beginPass, beginPass_active]
    exact decide_eq_decide.mpr Nat.pos_iff_ne_zero.symm
  done := by simp

/-- After a START that raises nothing, `n` rounds of the pass give its first `n` records, and the pass is active
before its last block and done after it. -/
theorem emitBlocks_of_start {s t : State} {p : List Byte} (h : exec .start s = .next t) (ht : t.err = false)
    (hd : p.length = s.progLen.toNat) (n : Nat) (hn : n ≤ t.totalBlocks.toNat) :
    ∃ u, emitBlocks p n t = some ((List.range n).map (passRecord p t), u) ∧ u.err = false ∧
      u.active = decide (n < t.totalBlocks.toNat) ∧ u.done = !u.active := by
  obtain ⟨⟨he, -, hacc⟩, rfl⟩ := exec_of_err_eq_false _ s t h ht
  have hstart : (complete (commandWrites .start s)).blockIndex.toNat = 0 := rfl
  have hbegin : PassProgress p (complete (commandWrites .start s)) := hacc.passProgress he hd
  obtain ⟨u, hemit, hu, hui, hut⟩ := hbegin.emitBlocks_eq n (by omega)
  refine ⟨u, ?_, hu.err, ?_, hu.done⟩
  · rw [List.range_eq_range']
    exact hemit
  · rw [hu.active, hui, hut, hstart, Nat.zero_add]

/-- TOTAL_BLOCKS after a START that raises nothing (R100). -/
theorem totalBlocks_of_start {s t : State} (h : exec .start s = .next t) (ht : t.err = false) :
    t.totalBlocks.toNat = s.bootEn.toNat + progRegionBlocks s := by
  obtain ⟨-, rfl⟩ := exec_of_err_eq_false _ s t h ht
  exact (totalBlocks_beginPass s).trans (congrArg (· + _) (bootRegionBlocks_eq s))

/-- Without EMPTY_BLK the program region has ceil(PROG_LEN / 256) blocks, PROG_LEN = 0 or not (R100). -/
theorem progRegionBlocks_of_not_emptyBlk (s : State) (hE : s.emptyBlk = false) :
    progRegionBlocks s = (s.progLen.toNat + 255) / 256 := by
  rcases Nat.eq_zero_or_pos s.progLen.toNat with hz | hpos
  · rw [progRegionBlocks_zero s hz, hE, hz]
    rfl
  · exact progRegionBlocks_pos s hpos

/-- Settles O27: the total is `passBlocks`, and record `k` of `emitBlocks_of_start` has index `k` and that total. -/
theorem passBlockCountConsistent : Obligations.PassBlockCountConsistent := by
  intro s t p he hx ht hd
  have htotal := totalBlocks_of_start hx ht
  have hrounds := emitBlocks_of_start hx ht hd
  obtain ⟨u, hemit, huerr, huact, hudone⟩ := hrounds _ le_rfl
  have hidle : u.active = false := by simp [huact]
  have hfinal : u.done = true := by simp [hudone, hidle]
  refine ⟨fun hE => ?_, fun hE hlen => ?_, _, u, hemit, ?_, ?_, hfinal, hidle, huerr, fun n hn => ?_⟩
  · have := progRegionBlocks_of_not_emptyBlk s hE
    omega
  · rw [htotal, progRegionBlocks_zero s (by simp [hlen]), hE]
    rfl
  · rw [List.map_map]
    refine (List.map_congr_left fun k hk => ?_).trans (List.map_id' _)
    have := List.mem_range.mp hk
    rw [Function.comp_apply, recordField_index_passRecord p t k (by omega)]
  · rintro b hb
    obtain ⟨k, -, rfl⟩ := List.mem_map.mp hb
    exact recordField_total_passRecord p t k
  · obtain ⟨v, hv, -, hact, hdone⟩ := hrounds n hn.le
    have hact : v.active = true := hact.trans (decide_eq_true hn)
    exact ⟨_, v, hv, hact, hdone.trans (congrArg _ hact)⟩

/-! ### The round trip (R106) -/

/-- The first `n` chunks, joined, are the first `256·n` bytes. -/
theorem flatten_programChunks (p : List Byte) (n : Nat) :
    ((List.range n).map (programChunk p)).flatten = p.take (256 * n) := by
  induction n with
  | zero => rfl
  | succ n ih =>
    rw [List.range_succ, List.map_append, List.flatten_append, ih, Nat.mul_succ, List.take_add]
    simp [programChunk]

theorem progLen_le_progRegionBlocks (s : State) : s.progLen.toNat ≤ 256 * progRegionBlocks s := by
  rcases Nat.eq_zero_or_pos s.progLen.toNat with hz | hpos
  · omega
  · rw [progRegionBlocks_pos s hpos]
    omega

/-- A pass's payloads, joined, are the boot image, if enabled, and the program data. -/
theorem flatten_passPayloads (p : List Byte) (s : State) (hd : p.length = s.progLen.toNat) :
    ((List.range (s.bootEn.toNat + progRegionBlocks s)).map (passPayload p s)).flatten =
      (if s.bootEn then bootImage s else []) ++ p := by
  have hprog : ((List.range (progRegionBlocks s)).map (programChunk p)).flatten = p := by
    rw [flatten_programChunks, List.take_of_length_le (hd.trans_le (progLen_le_progRegionBlocks s))]
  have hshift : passPayload p s ∘ (s.bootEn.toNat + ·) = programChunk p := by
    funext q
    simp [passPayload, bootRegionBlocks_eq]
  have hboot : ((List.range s.bootEn.toNat).map (passPayload p s)).flatten =
      if s.bootEn then bootImage s else [] := by
    cases hB : s.bootEn <;> simp [passPayload, bootRegionBlocks_eq, hB]
  rw [List.range_add, List.map_append, List.map_map, hshift, List.flatten_append, hprog, hboot]

/-- Settles O28: the records' payloads are `passPayload`, which join to the image and the program. -/
theorem passRoundTrip : Obligations.PassRoundTrip := by
  intro s t p he hx ht hd
  obtain ⟨u, hemit, -, huact, hudone⟩ := emitBlocks_of_start hx ht hd _ le_rfl
  have hdone : u.done = true := by simp [hudone, huact]
  refine ⟨_, u, hemit, hdone, ?_⟩
  rw [List.map_map, recordPayload_comp_passRecord, totalBlocks_of_start hx ht]
  obtain ⟨-, rfl⟩ := exec_of_err_eq_false _ s t hx ht
  exact flatten_passPayloads p s hd

/-! ### The same pass again (R111) -/

/-- Settles O29: the totals and the records are functions of what the two states agree on. -/
theorem passRerunIdentical : Obligations.PassRerunIdentical := by
  intro s s' t t' p he he' hx hx' ht ht' hB hE hlen hbase hprog hfam himage hd
  have htotal : t.totalBlocks = t'.totalBlocks := by
    apply BitVec.eq_of_toNat_eq
    rw [totalBlocks_of_start hx ht, totalBlocks_of_start hx' ht', progRegionBlocks, progRegionBlocks, hB, hE, hlen]
  obtain ⟨u, hemit, -⟩ := emitBlocks_of_start hx ht hd _ le_rfl
  obtain ⟨u', hemit', -⟩ := emitBlocks_of_start hx' ht' (hd.trans (congrArg _ hlen)) _ le_rfl
  have hsame : SamePassInputs t' t := by
    obtain ⟨-, rfl⟩ := exec_of_err_eq_false _ s t hx ht
    obtain ⟨-, rfl⟩ := exec_of_err_eq_false _ s' t' hx' ht'
    exact ⟨hB, htotal, hbase, hprog, hfam, himage⟩
  refine ⟨htotal, _, u, u', hemit, ?_⟩
  rw [hemit', hsame.passRecord_eq p, htotal]

end Sys2Proof.Machine
end

section
/-! SUPPORT. The proofs of the family of spec/42_control.md: CMD's write latches a word (R120), the engine's step
dispatches it (R121), and CLEAR returns the block to idle (R122). -/

namespace Sys2Proof.Machine

/-! ### CLEAR, and the skip (R121, R122) -/

/-- Settles O30: no check stands before CLEAR's writes. -/
theorem clearResetsErrorAndPass : Obligations.ClearResetsErrorAndPass :=
  ⟨encode_clear, exec_clear_eq⟩

/-- Settles O31: the four commands share `runCommand`, which skips them. -/
theorem commandsSkippedWhileError : Obligations.CommandsSkippedWhileError := by
  intro i s hi he
  cases i with
  | clear => exact absurd rfl hi
  | inject | verify | start | emit => exact congrArg Host.Outcome.next (runCommand_of_err _ s he)

/-! ### The dispatch (R121) -/

theorem engineStep_of_command {s : State} {i : Instr} (h : decode s.pendingCmd = .command i) :
    engineStep s = exec i s := by
  simp only [engineStep, h]

theorem engineStep_of_encode {s : State} {i : Instr} (h : s.pendingCmd = encode i) : engineStep s = exec i s :=
  engineStep_of_command ((decode_eq_command_iff _ i).mpr h)

theorem engineTurn_of_command {s : State} {i : Instr} (hb : s.busy = true) (h : decode s.pendingCmd = .command i) :
    engineTurn s = exec i s :=
  (engineTurn_of_busy hb).trans (engineStep_of_command h)

/-- Settles O4: planned or with nothing planned, the step is the turn of a busy engine. -/
theorem stepRunsDecodedCommand : Obligations.StepRunsDecodedCommand := fun _ _ hb hd =>
  ⟨fun _ ha => (step_of_engineTurn ha).trans (engineTurn_of_command hb hd),
    fun ha => (step_of_nil ha).trans (engineTurn_of_command hb hd)⟩

/-- A placed command stands in PENDING_CMD, and the engine's turn comes next. -/
theorem withFetchWord_encode (i : Instr) (s : State) : s.withFetchWord 32 (encode i).toNat =
    { s with pendingCmd := encode i, busy := true, agenda := .engineTurn :: s.agenda } := by
  rw [State.withFetchWord, BitVec.ofNat_toNat, BitVec.setWidth_eq]

/-- Settles O5: the placed word decodes to its command, which the turn runs. -/
theorem fetchedWordRunsNext : Obligations.FetchedWordRunsNext := by
  intro i s
  rw [withFetchWord_encode, step_of_engineTurn rfl]
  exact engineTurn_of_command rfl (decode_encode i)

/-- While an error is pending, every word but CLEAR's is skipped, legal or not. -/
theorem engineStep_of_err {s : State} (hw : s.pendingCmd ≠ 5#32) (he : s.err = true) :
    engineStep s = .next { s with busy := false } := by
  cases hlegal : commandLegal s.pendingCmd with
  | true =>
    obtain ⟨i, hi⟩ := (commandLegal_iff_encode _).mp hlegal
    have hne : i ≠ .clear := by
      rintro rfl
      exact hw hi
    rw [engineStep_of_encode hi, commandsSkippedWhileError i s hne he]
  | false => rw [engineStep_of_illegal s hlegal, if_pos he, complete]

theorem commandLegal_of_notMem {w : Word} (h : w ∉ [1#32, 2#32, 3#32, 4#32, 5#32]) : commandLegal w = false := by
  rw [← Bool.not_eq_true, commandLegal_iff_encode]
  rintro ⟨i, rfl⟩
  cases i <;> exact h (by decide)

/-- Settles O6: the five words by their encodings, the skip, the illegal words, and BUSY before and after. -/
theorem engineStepDispatches : Obligations.EngineStepDispatches := by
  intro s
  refine ⟨engineStep_of_encode (i := .clear), engineStep_of_err, engineStep_of_encode (i := .inject),
    engineStep_of_encode (i := .verify), engineStep_of_encode (i := .start), engineStep_of_encode (i := .emit),
    fun he hw => ?_, ?_, engineTurn_of_busy, engineTurn_of_idle⟩
  · rw [engineStep_of_illegal s (commandLegal_of_notMem hw), if_neg (by simp [he])]
  · obtain ⟨t, ht⟩ := engineStep_eq_next s
    exact ⟨t, ht, engineStep_busy s t ht⟩

/-! ### CMD's write (R120) -/

theorem busCheck_write_cmd_of_busy (s : State) (hb : s.busy = true) :
    busCheck true 0x004#12 s = .error .writeWhileBusy :=
  busCheck_write_of_busy (offset_aligned .cmd) (busTarget_offset .cmd) hb

/-- Settles O45: BUSY alone decides CMD's check, and the accepted write is CMD's. -/
theorem cmdWriteLatchesCommand : Obligations.CmdWriteLatchesCommand := fun w s =>
  ⟨fun hb => busTransaction_write_of_ok _ w s _ (busCheck_write_cmd s hb),
    fun hb => busTransaction_write_of_refused w (by simp [busCheck_write_cmd_of_busy s hb])⟩

end Sys2Proof.Machine
end

section
/-! SUPPORT. The proofs of the family of spec/60_exceptions.md: command errors are precise (R141), the first error
stays until CLEAR or a reset (R140, R145), and an ended run stays ended (R152, R154). -/

namespace Sys2Proof.Machine

/-! ### A command that raises (R141) -/

/-- Settles O32: the next state always exists, and one with ERR = 1 is the failure of R140. -/
theorem commandErrorsArePrecise : Obligations.CommandErrorsArePrecise := by
  intro i s he
  obtain ⟨t, hx⟩ := exec_eq_next i s
  refine ⟨t, hx, fun ht => ?_⟩
  obtain ⟨c, -, rfl⟩ := exec_raises i s t he hx ht
  rfl

/-! ### The error registers (R140, R145) -/

/-- The error registers are the same in both states. -/
structure SameError (s t : State) : Prop where
  err : t.err = s.err
  errCode : t.errCode = s.errCode
  errCmd : t.errCmd = s.errCmd

theorem sameError_writeTarget (u : Target) (w : Word) (s : State) : SameError s (writeTarget u w s) := by
  cases u with
  | reg r => cases r <;> exact ⟨rfl, rfl, rfl⟩
  | word b k => cases b <;> exact ⟨rfl, rfl, rfl⟩

/-- The host cannot write the error registers. -/
theorem sameError_busTransaction (x : BusTxn) (s : State) : SameError s (busTransaction x s) := by
  obtain hx | ⟨_, u, -, -, hx⟩ | ⟨_, w, u, -, -, hx⟩ := busTransaction_cases x s <;> rw [hx]
  · exact ⟨rfl, rfl, rfl⟩
  · obtain ⟨-, -, hr⟩ | ⟨-, hr⟩ := acceptRead_cases u s <;> rw [hr] <;> exact ⟨rfl, rfl, rfl⟩
  · exact { sameError_writeTarget u w s with }

/-- With an error pending, the engine's step is CLEAR's or leaves the error registers. -/
theorem engineStep_clear_or_sameError {s t : State} (he : s.err = true) (h : engineStep s = .next t) :
    (s.pendingCmd = 5#32 ∧ t.err = false) ∨ SameError s t := by
  by_cases hw : s.pendingCmd = 5#32
  · have hclear : engineStep s = exec .clear s := engineStep_of_encode (hw.trans encode_clear.symm)
    obtain rfl := Host.Outcome.next.inj ((exec_clear_eq s).symm.trans (hclear.symm.trans h))
    exact .inl ⟨hw, rfl⟩
  · obtain rfl := Host.Outcome.next.inj ((engineStep_of_err hw he).symm.trans h)
    exact .inr ⟨rfl, rfl, rfl⟩

/-- With an error pending, a step leaves the error registers, or clears ERR as CLEAR's engine step or a reset. -/
theorem step_sameError_or_clears {s t : State} (he : s.err = true) (h : step s = .next t) :
    SameError s t ∨ (t.err = false ∧
      ((s.busy = true ∧ s.pendingCmd = 5#32 ∧ t.busy = false) ∨ ∃ rest, s.agenda = .reset :: rest)) := by
  obtain ⟨rest, ⟨x, -, rfl⟩ | ⟨ha, rfl⟩ | ⟨-, rfl⟩ | ⟨hb, hx⟩⟩ := step_cases s t h
  · exact .inl { sameError_busTransaction x { s with agenda := rest } with }
  · exact .inr ⟨rfl, .inr ⟨rest, ha⟩⟩
  · exact .inl ⟨rfl, rfl, rfl⟩
  · obtain ⟨hw, ht⟩ | hsame := engineStep_clear_or_sameError (s := { s with agenda := rest }) he hx
    · exact .inr ⟨ht, .inl ⟨hb, hw, engineStep_busy _ t hx⟩⟩
    · exact .inl { hsame with }

/-- Settles O33: a step that leaves the error registers leaves ERR = 1, and every other clears it. -/
theorem firstErrorStays : Obligations.FirstErrorStays := by
  intro s t he h
  obtain ⟨herr, hcode, hcmd⟩ | ⟨ht, hclears⟩ := step_sameError_or_clears he h
  · exact ⟨fun _ => ⟨hcode, hcmd⟩, fun hn => by simp [herr, he] at hn⟩
  · exact ⟨fun hn => by simp [ht] at hn, fun _ => hclears⟩

/-! ### The end of a run (R152, R154) -/

/-- With nothing planned, the step is the turn of an engine that has no command. -/
theorem step_of_runEnded {s : State} (h : runEnded s) : step s = .next s := by
  obtain ⟨ha, hb⟩ := h
  exact (step_of_nil ha).trans (engineTurn_of_idle hb)

/-- Settles O56, by induction on the number of steps. -/
theorem endedRunStays : Obligations.EndedRunStays := by
  intro s k h
  induction k with
  | zero => exact run_zero s
  | succ k ih => exact (run_succ_of_next k s s (step_of_runEnded h)).trans ih

end Sys2Proof.Machine
end

section
/-! SUPPORT. The proofs of the family of spec/70_reset_and_hazards.md: the reset values and the reset input's
place in a step (R160, R161), and the configuration's lock during a pass (R168). -/

namespace Sys2Proof.Machine

/-! ### Reset (R160, R161) -/

/-- What the host reads after the reset input does not depend on the state it was asserted in. -/
theorem readRegister_hardReset (r : Reg) (s : State) :
    readRegister r (hardReset s) = readRegister r State.reset := by
  cases r <;> rfl

/-- Settles O9: the registers read as in the reset state, where the values are evaluated, and the engine is idle. -/
theorem resetGivesResetValues : Obligations.ResetGivesResetValues := by
  intro u hu
  have hread : ∀ r, readRegister r u = readRegister r State.reset := by
    obtain rfl | ⟨s, rfl⟩ := hu
    · exact fun _ => rfl
    · exact fun r => readRegister_hardReset r s
  have hidle : u.busy = false ∧ u.pendingCmd = 0#32 := by
    obtain rfl | ⟨s, rfl⟩ := hu <;> exact ⟨rfl, rfl⟩
  obtain ⟨hbusy, hpending⟩ := hidle
  simp only [hread, hpending, engineTurn_of_idle hbusy, and_true]
  decide

/-- After the reset input every buffer byte holds a draw of the reset that has just been counted. -/
theorem byteAt_hardReset (s : State) (a : Nat) :
    byteAt (hardReset s) a = Config.bufferDraw (s.resetDraw + 1) a := rfl

/-- Settles O10: no state refuses the event, and the memory is empty after it. -/
theorem resetInputAlwaysAccepted : Obligations.ResetInputAlwaysAccepted := fun s rest h =>
  ⟨step_of_reset h, hardReset_resetDraw _, byteAt_hardReset { s with agenda := rest }⟩

/-! ### The configuration's lock (R168) -/

/-- The RW-L registers and the bytes of BOOT_BUF are the same in both states. -/
structure SameLockedState (s t : State) : Prop where
  bootEn : t.bootEn = s.bootEn
  emptyBlk : t.emptyBlk = s.emptyBlk
  bootLen : t.bootLen = s.bootLen
  progLen : t.progLen = s.progLen
  bootBase : t.bootBase = s.bootBase
  progBase : t.progBase = s.progBase
  familyId : t.familyId = s.familyId
  bootBuf : bufBytes .boot 0 256 t = bufBytes .boot 0 256 s

theorem SameLockedState.refl (s : State) : SameLockedState s s := ⟨rfl, rfl, rfl, rfl, rfl, rfl, rfl, rfl⟩

theorem sameLockedState_respond (r : BusResponse) (s : State) : SameLockedState s (respond r s) :=
  { SameLockedState.refl s with }

/-- An accepted read writes the host's log and the count of draws alone. -/
theorem sameLockedState_acceptRead (u : Target) (s : State) : SameLockedState s (acceptRead u s) := by
  obtain ⟨-, -, hr⟩ | ⟨-, hr⟩ := acceptRead_cases u s <;> rw [hr] <;> exact { SameLockedState.refl s with }

/-- What is not of class RW-L is no part of the configuration. -/
theorem sameLockedState_writeTarget {u : Target} (hu : u.access ≠ .rwLocked) (w : Word) (s : State) :
    SameLockedState s (writeTarget u w s) := by
  cases u with
  | reg r =>
    cases r with
    | ctrl | bootLen | progLen | bootBase | progBase | familyId => exact absurd rfl hu
    | cmd | status | errCode | errCmd | crcResult | totalBlocks | blockIndex | regionPos =>
      exact { SameLockedState.refl s with }
  | word b k =>
    cases b with
    | boot => exact absurd rfl hu
    | data =>
      have hbelow : Buffer.base .boot + 0 + 256 ≤ Buffer.base .data + 4 * k := Nat.le_add_right _ _
      exact { SameLockedState.refl s with
        bootBuf := bufBytes_storeBytes_disjoint .data .boot _ 0 256 _ s (.inr hbelow) }
    | out => exact .refl s

/-- During a pass an accepted write names nothing of class RW-L. -/
theorem sameLockedState_busTransaction (x : BusTxn) {s : State} (ha : s.active = true) :
    SameLockedState s (busTransaction x s) := by
  obtain hx | ⟨_, u, -, -, hx⟩ | ⟨off, w, u, -, hc, hx⟩ := busTransaction_cases x s <;> rw [hx]
  · exact sameLockedState_respond .error s
  · exact sameLockedState_acceptRead u s
  · obtain ⟨-, -, -, -, hlock⟩ := (busCheck_write_ok off s u).mp hc
    have hu : u.access ≠ .rwLocked := fun hl => by simp [hlock hl] at ha
    exact { sameLockedState_writeTarget hu w s with }

/-- A pass refuses every write of a locked offset. -/
theorem busTransaction_write_of_locked {off : Offset} (w : Word) {s : State} (hl : lockedOffset off.toNat = true)
    (ha : s.active = true) : busTransaction (.write off w) s = respond .error s := by
  obtain ⟨-, -, -, -, -, hwrite⟩ := busErrorExactlyWhenRefused off s
  obtain ⟨hrefused, -⟩ := hwrite w
  exact hrefused (.inr (.inr (.inr (.inr ⟨hl, ha⟩))))

/-- The RW-L registers' offsets and BOOT_BUF's are locked. -/
theorem lockedOffset_of_configuration {off : Offset}
    (h : off ∈ [0x000#12, 0x014#12, 0x018#12, 0x01C#12, 0x020#12, 0x024#12] ∨
      (0x100 ≤ off.toNat ∧ off.toNat < 0x200)) : lockedOffset off.toNat = true := by
  obtain hreg | hboot := h
  · have hall : ∀ o ∈ [0x000#12, 0x014#12, 0x018#12, 0x01C#12, 0x020#12, 0x024#12],
        lockedOffset o.toNat = true := by decide
    exact hall off hreg
  · exact decide_eq_true (.inr (.inr hboot))

/-- Settles O49: the offsets are locked, what a pass accepts is no part of the configuration, and the host cannot
move the sequencer. -/
theorem configurationLockedWhileActive : Obligations.ConfigurationLockedWhileActive := by
  refine fun s ha => ⟨fun off w h => busTransaction_write_of_locked w (lockedOffset_of_configuration h) ha,
    fun x => ?_⟩
  obtain ⟨hbootEn, hemptyBlk, hbootLen, hprogLen, hbootBase, hprogBase, hfamilyId, hbootBuf⟩ :=
    sameLockedState_busTransaction x ha
  exact ⟨hbootEn, hemptyBlk, hbootLen, hprogLen, hbootBase, hprogBase, hfamilyId,
    (sameSequencer_busTransaction x s).active.trans ha, hbootBuf⟩

end Sys2Proof.Machine
end
